-- ==== Sys2Proof/Word.lean ====
section
/-! DEFINITION. The plain values the DZ-816 model is built from: bytes, the eight-fold collection that holds one
value for each of the part's eight elements, and sets of elements. No rule of the part stands here. -/

namespace Sys2Proof

/-- One byte of a frame, of the configuration image or of a sample trace. -/
abbrev Byte := BitVec 8

/-- The eight elements of the carriage, 0 to 7 (scope section 3.1). -/
abbrev Element := Fin 8

/-- One value for each of eight numbered places: the elements 0 to 7, or the exclusion zone entries 0 to 7. -/
structure Eight (α : Type) where
  e0 : α
  e1 : α
  e2 : α
  e3 : α
  e4 : α
  e5 : α
  e6 : α
  e7 : α
deriving DecidableEq, Repr

/-- The value at place `i`. -/
def Eight.get {α : Type} (v : Eight α) (i : Fin 8) : α :=
  match i with
  | 0 => v.e0
  | 1 => v.e1
  | 2 => v.e2
  | 3 => v.e3
  | 4 => v.e4
  | 5 => v.e5
  | 6 => v.e6
  | 7 => v.e7

/-- The collection whose value at place `i` is `f i`. -/
def Eight.ofFn {α : Type} (f : Fin 8 → α) : Eight α := ⟨f 0, f 1, f 2, f 3, f 4, f 5, f 6, f 7⟩

/-- The same value at every place. -/
def Eight.all {α : Type} (a : α) : Eight α := ⟨a, a, a, a, a, a, a, a⟩

/-- `v` with place `i` set to `a`. -/
def Eight.set {α : Type} (v : Eight α) (i : Fin 8) (a : α) : Eight α :=
  Eight.ofFn fun j => if j = i then a else v.get j

/-- Each value replaced by its image. -/
def Eight.map {α β : Type} (f : α → β) (v : Eight α) : Eight β := Eight.ofFn fun i => f (v.get i)

/-- The values in increasing order of place. -/
def Eight.toList {α : Type} (v : Eight α) : List α := [v.e0, v.e1, v.e2, v.e3, v.e4, v.e5, v.e6, v.e7]

/-- A set of elements: `true` at an element that is in it. -/
abbrev ElementSet := Eight Bool

/-- The elements in increasing order. -/
def elements : List Element := [0, 1, 2, 3, 4, 5, 6, 7]

/-- The empty set of elements. -/
def noElements : ElementSet := Eight.all false

/-- The members of a set of elements, in increasing order. -/
def Eight.members (m : Eight Bool) : List Element := elements.filter fun e => m.get e

/-- The set of the elements of a list. -/
def setOf (es : List Element) : ElementSet := Eight.ofFn fun e => es.contains e

end Sys2Proof
end

