-- ==== Sys2Proof/Syntax.lean ====
section
/-! DEFINITION. The commands of the DZ-816: one constructor of `Instr` for each row of spec/opcode_table.json, with
the operands each brings from outside the part (levels of its sensor lines, lengths of pulses on the link, the fields
of a frame, the traces of a shot). -/

namespace Sys2Proof

/-- The level of an input line. -/
inductive Level where
  | low
  | high
deriving DecidableEq, Repr

/-- The rail the station serves, read from the rail strap: low LEFT, high RIGHT (R159). -/
inductive Rail where
  | left
  | right
deriving DecidableEq, Repr

/-- The three reset causes (R157). -/
inductive ResetCause where
  | power
  | line
  | supply
deriving DecidableEq, Repr

/-- The two lines of the carriage encoder (section 1.2). -/
inductive EncoderLine where
  | a
  | b
deriving DecidableEq, Repr

/-- The encoder lines whose filters complete their filter time at one moment (R4, remark after Table 1-3). -/
inductive AcceptedLines where
  | a
  | b
  | both
deriving DecidableEq, Repr

/-- The levels of the five strap lines: the address straps ADS0 to ADS3 and the rail strap RAILS (R159). -/
structure Straps where
  ads0 : Level
  ads1 : Level
  ads2 : Level
  ads3 : Level
  rails : Level
deriving DecidableEq, Repr

/-- What the row of a pulse brings: a dominant pulse begins on the line, or the pulse on the line is released, `ns` being
its whole length in nanoseconds (R137). A release may come alone: the pulse then lasts no time of the model's clock
(assumption log 15). -/
inductive Pulse where
  | begins
  | released (ns : Nat)
deriving DecidableEq, Repr

/-- What a sending transmitter hears in place of the bit it drives (R144): another bit, a pulse that is no bit, of a
length in nanoseconds, or nothing at all (a line broken open). -/
inductive Heard where
  | bit (b : Bool)
  | pulse (ns : Nat)
  | nothing
deriving DecidableEq, Repr

/-- The fields of an ANNOUNCE payload as the raw bits of Table 10-8; descriptor `e` is element `e`'s six bits. -/
structure AnnounceFields where
  fresh : Bool
  state : BitVec 3
  cause : BitVec 2
  rail : Bool
  runNumber : BitVec 16
  imageId : BitVec 16
  mask : Byte
  descriptors : Eight (BitVec 6)
deriving DecidableEq, Repr

/-- The fields of an INDICATION payload as the raw bits of Table 10-4; `size` is the depth (ECHO) or the extent
(BWL). -/
structure IndicationFields where
  sequence : BitVec 16
  element : BitVec 3
  rail : Bool
  bwl : Bool
  state : BitVec 2
  saturated : Bool
  key : BitVec 4
  sense : BitVec 2
  zone : BitVec 2
  x : BitVec 32
  size : BitVec 16
  peak : Byte
  length : Byte
  refAddress : BitVec 4
  refSequence : BitVec 16
deriving DecidableEq, Repr

/-- The fields of a GAP payload as the raw bits of Table 10-6. -/
structure GapFields where
  close : Bool
  cause : BitVec 3
  mask : Byte
  startX : BitVec 32
  endX : BitVec 32
deriving DecidableEq, Repr

/-- The fields of a SPAN payload as the raw bits of Table 10-7. -/
structure SpanFields where
  index : BitVec 16
  endX : BitVec 32
  tested : Eight Byte
deriving DecidableEq, Repr

/-- The fields of a FAULT payload as the raw bits of Table 10-9. -/
structure FaultFields where
  kind : BitVec 3
  hasPosition : Bool
  arg : BitVec 4
  index : BitVec 16
  x : BitVec 32
  runNumber : BitVec 16
deriving DecidableEq, Repr

/-- The fields of a STATUS payload: the page number and the 13 bytes of the page (Table 10-10). -/
structure StatusFields where
  page : Byte
  body : BitVec 104
deriving DecidableEq, Repr

/-- The commands, one for each row of spec/opcode_table.json, in the table's order.

`peaks` is the peak drive current, in microamperes, that each element's pulser would show if a shot fired in this
command drove it (R35). `src` is the address of the frame's sender, `dest` the destination byte of a request
(Table 10-2). `pulse` is the beginning of a dominant pulse on the line or its release (Table 8-2). -/
inductive Instr where
  /-- RESET (R157): the last condition holding the part in reset ends; `cause` is that condition. -/
  | reset (cause : ResetCause) (straps : Straps)
  /-- STARTING_END (R164): the load has run over the serial memory holding `memory` from address 0. -/
  | startingEnd (memory : List Byte)
  /-- ENCODER_LINE_CHANGE (R3): the raw line takes `level`. -/
  | encoderLineChange (line : EncoderLine) (level : Level)
  /-- ENCODER_LEVEL_ACCEPTED (R4): the filters of `lines` complete. -/
  | encoderLevelAccepted (lines : AcceptedLines) (peaks : Eight Nat)
  /-- STILLNESS (R10). -/
  | stillness
  /-- LIFT_LINE_CHANGE (R12): the raw lift line takes `level`. -/
  | liftLineChange (level : Level)
  /-- LIFT_RECOGNISED (R13). -/
  | liftRecognised (peaks : Eight Nat)
  /-- LISTENING_END (R26): each element's samples from tick 0 on; ticks past a list's end hold amplitude 0. -/
  | listeningEnd (traces : Eight (List Byte))
  /-- RECOVERY_END (R27). -/
  | recoveryEnd (peaks : Eight Nat)
  /-- SETTLE_COMPLETE (R29). -/
  | settleComplete (peaks : Eight Nat)
  /-- RUN (R167), a request frame of Table 10-3. -/
  | run (src : BitVec 4) (dest : Byte) (runNumber : BitVec 16) (start : BitVec 32)
  /-- STOP (R168), a request frame. -/
  | stop (src : BitVec 4) (dest : Byte)
  /-- RUN_END (R113, R168): the run end effects of a STOP. -/
  | runEnd
  /-- HALT (R169), a request frame. -/
  | halt (src : BitVec 4) (dest : Byte)
  /-- ZONE (R91), a request frame. -/
  | zone (src : BitVec 4) (dest : Byte) (index : Byte) (base limit : BitVec 32)
  /-- FLUSH (R134), a request frame; `peer` is the low half of its last byte. -/
  | flush (src : BitVec 4) (dest : Byte) (scope : Byte) (peer : BitVec 4)
  /-- CLEAR (R171), a request frame. -/
  | clear (src : BitVec 4) (dest : Byte)
  /-- QUERY (R171), a request frame. -/
  | query (src : BitVec 4) (dest : Byte) (page : Byte)
  /-- ANNOUNCE (R118), a peer's notice frame. -/
  | announce (src : BitVec 4) (fields : AnnounceFields)
  /-- INDICATION (R130), a peer's notice frame. -/
  | indication (src : BitVec 4) (fields : IndicationFields)
  /-- GAP (R121), a peer's notice frame. -/
  | gap (src : BitVec 4) (fields : GapFields)
  /-- SPAN (R121), a peer's notice frame. -/
  | span (src : BitVec 4) (fields : SpanFields)
  /-- FAULT (R153), a peer's notice frame. -/
  | fault (src : BitVec 4) (fields : FaultFields)
  /-- STATUS (R153), a peer's notice frame. -/
  | status (src : BitVec 4) (fields : StatusFields)
  /-- UNKNOWN_KIND (R153): a good frame whose kind code Table 8-5 does not list. -/
  | unknownKind (src : BitVec 4) (kind : BitVec 6) (payload : List Byte)
  /-- LINE_IDLE (R138): 40 µs of recessive line; `dominant` says whether another participant is already driving the
  line at the moment the part would start (R142). -/
  | lineIdle (dominant : Bool)
  /-- FRAME_END (R139). -/
  | frameEnd
  /-- ARBITRATION_LOST (R143). -/
  | arbitrationLost
  /-- TRANSMIT_ERROR (R144). -/
  | transmitError (heard : Heard)
  /-- HALT_SYMBOL (R146): the beginning or the release of a pulse of 100 µs to 2 ms. -/
  | haltSymbol (pulse : Pulse)
  /-- STUCK_LINE (R147): a pulse passes 2 ms. -/
  | stuckLine
  /-- NOISE_PULSE (R137): the beginning or the release of a pulse below 0.5 µs. -/
  | noisePulse (pulse : Pulse)
  /-- FORM_ERROR (R137): the beginning or the release of a pulse of the wrong length for the receiver's state. -/
  | formError (pulse : Pulse)
  /-- LEAD_MARK (R138): the beginning or the release of a pulse of 8 to 12 µs in IDLE. -/
  | leadMark (pulse : Pulse)
  /-- BIT_RECEIVED (R137): the beginning or the release of a pulse of 0.5 µs to under 5 µs in FRAME. -/
  | bitReceived (pulse : Pulse)
  /-- WAIT_FOR_IDLE_RESTART (R138): the beginning or the release of a pulse of 0.5 µs to under 100 µs in SEEKING, or
  the release that ends a stuck line (assumption log 15). -/
  | waitForIdleRestart (pulse : Pulse)
  /-- HELD_IN_RESET (R157): the condition `cause` arises and holds the part in reset. -/
  | heldInReset (cause : ResetCause)
deriving DecidableEq, Repr

end Sys2Proof
end

