-- ==== Sys2Proof/Decode.lean ====
section
/-! DEFINITION. The command a word spells. No row of spec/opcode_table.json gives bits (each row's "fields" is empty
and none has "fixed"), so no word spells a command: the DZ-816 has no register window and fetches no instruction; its
commands are events on its pins and frames on the station link (scope section 1.2). The bytes of the frames are decoded
in Sys2Proof/Machine/Operands.lean. -/

namespace Sys2Proof

/-- The command spelled by the `nbits` bits of `w`: none, for every word (no row of the table gives bits). -/
def decodeTableWord (_nbits _w : Nat) : Option Instr := none

end Sys2Proof
end

