-- ==== Sys2Proof/Config.lean ====
section
/-! DEFINITION. What is fixed for the part (capacities, times, acceptance limits), the configuration an image loads
into it (the fields of Tables 10-12 and 10-13), and the one free value of the model: the order in which blocks that the
manual allows to act in either order take an event. -/

namespace Sys2Proof

/-! ## The free order -/

/-- FREE VALUE (assumption log 1). The manual lets blocks that are reached by one event take it in either order (R60,
R72, R82, R125, R148). The model does not choose: at the `n`-th such moment the order is picked by the numbers
`Config.order n 0`, `Config.order n 1`, … No body, so nothing can be proved of it. -/
opaque Config.order : Nat → Nat → Nat

/-! ## Capacities (the state tables of chapters 4, 5, 7, 8 and 9) -/

/-- The chain table's entries (R57). -/
def Config.chainCapacity : Nat := 48
/-- The transmit queue's frames (R148). -/
def Config.txCapacity : Nat := 24
/-- The number of queued frames whose reaching ends a TXQ_FULL episode (R149). -/
def Config.txRelief : Nat := 12
/-- The receive queue's frames (R152). -/
def Config.rxCapacity : Nat := 4
/-- The fault file's records (R172). -/
def Config.faultCapacity : Nat := 8
/-- The peer table's entries: one for each other address (Table 7-2). -/
def Config.peerCapacity : Nat := 15
/-- The peer notice list's entries (R123). -/
def Config.peerNoticeCapacity : Nat := 32
/-- The own pairing list's entries (R124). -/
def Config.ownCapacity : Nat := 16

/-! ## Ranges and limits -/

/-- The top of a 16-bit saturating counter (scope section 3.3). -/
def Config.counterMax : Nat := 65535
/-- The greatest travel, 2^48 − 1 µm (R5). -/
def Config.travelMax : Nat := 281474976710655
/-- The least car position and least whole part of a fine position, in mm (R5, R14). -/
def Config.positionMin : Int := -2147483648
/-- The greatest car position and greatest whole part of a fine position, in mm (R5, R14). -/
def Config.positionMax : Int := 2147483647
/-- The acceptance window of the peak drive current, 0.5 A to 5.0 A, in microamperes (R35). -/
def Config.peakMin : Nat := 500000
/-- See `Config.peakMin`. -/
def Config.peakMax : Nat := 5000000

/-! ## Times, in ticks of 20 ns (scope section 3.1) -/

/-- Ticks in 0.1 µs, the unit of the encoder filter time. -/
def Config.ticksPerTenthMicro : Nat := 5
/-- Ticks in 1 µs. -/
def Config.ticksPerMicro : Nat := 50
/-- Ticks in 1 ms. -/
def Config.ticksPerMilli : Nat := 50000
/-- The high-voltage settle, 2 ms (R28). -/
def Config.settleTicks : Nat := 100000
/-- Recessive line that makes the line idle, 40 µs (R138). -/
def Config.idleTicks : Nat := 2000
/-- Recessive line that ends a frame, 12 µs (R138). -/
def Config.frameEndTicks : Nat := 600
/-- The length of a dominant pulse at which a frame being received is given up, 5 µs (R137). -/
def Config.giveUpTicks : Nat := 250
/-- The longest lead mark, 12 µs (Table 8-2): in IDLE, a dominant pulse that outlasts it is none. -/
def Config.leadTicks : Nat := 600
/-- The first tick of a dominant pulse that is past 2 ms (R137, R147). -/
def Config.stuckTicks : Nat := 100001
/-- Nanoseconds in a tick. -/
def Config.tickNanos : Nat := 20

/-! ## The loaded configuration -/

/-- The station section of the image (Table 10-12). -/
structure StationSection where
  /-- O, mm, signed -/
  mountOffset : Int
  /-- E, µm -/
  edgePitch : Nat
  encoderInvert : Bool
  /-- F, in 0.1 µs -/
  encoderFilter : Nat
  liftActive : Level
  /-- ms -/
  liftFilter : Nat
  /-- in 100 ms -/
  stillTime : Nat
  perShotLimit : Nat
  /-- µs -/
  recovery : Nat
  /-- H, mm -/
  hysteresis : Nat
  /-- m -/
  spanLength : Nat
  /-- m -/
  silence : Nat
  /-- mm -/
  pairWindow : Nat
  /-- 0.1 mm -/
  depthWindow : Nat
  /-- m -/
  horizon : Nat
  /-- mm -/
  b1 : Nat
  b2 : Nat
  b3 : Nat
  /-- row i: bit 7 − j is entry (i, j) -/
  compatibility : Eight Byte
  /-- U, mm -/
  couplingRun : Nat
  /-- mm -/
  backWallMin : Nat
deriving DecidableEq, Repr

/-- One threshold point (u, L) of gate A (Table 3-1). -/
structure ThresholdPoint where
  u : Nat
  level : Nat
deriving DecidableEq, Repr

/-- One element section of the image (Table 10-13), each field as read. -/
structure ElementSection where
  /-- 0 clear, 1 set -/
  enable : Nat
  /-- 0 to 15 in a section that passes its check -/
  key : Nat
  /-- s, Q14 -/
  sine : Int
  /-- c, Q14 -/
  cosine : Nat
  /-- k, 1/256 µm per tick -/
  pathScale : Nat
  /-- D, ticks -/
  nominalDelay : Nat
  /-- d, µm -/
  pitch : Nat
  /-- µm -/
  phase : Nat
  /-- V, ticks -/
  window : Nat
  iStart : Nat
  iEnd : Nat
  /-- C -/
  couplingLevel : Nat
  aStart : Nat
  aEnd : Nat
  pointCount : Nat
  /-- Z, ticks -/
  deadZone : Nat
  /-- the four points the image always holds -/
  points : List ThresholdPoint
  /-- 0 clear, 1 set -/
  bEnable : Nat
  backWallLevel : Nat
  bStart : Nat
  bEnd : Nat
  /-- W, µm -/
  chainWindow : Nat
  /-- G, mm -/
  chainGap : Nat
  minLength : Nat
  reportLevel : Nat
deriving DecidableEq, Repr

/-- The loaded configuration: the station section and the eight element sections, failed ones included (R163). -/
structure Configuration where
  station : StationSection
  element : Eight ElementSection
deriving DecidableEq, Repr

/-- The station section that stands where no configuration is loaded. No block reads it: without a loaded
configuration the odometer, the scheduler and the coverage monitor are inactive (R1, R18, R97). -/
def StationSection.blank : StationSection :=
  { mountOffset := 0, edgePitch := 0, encoderInvert := false, encoderFilter := 0, liftActive := .low, liftFilter := 0,
    stillTime := 0, perShotLimit := 0, recovery := 0, hysteresis := 0, spanLength := 0, silence := 0, pairWindow := 0,
    depthWindow := 0, horizon := 0, b1 := 0, b2 := 0, b3 := 0, compatibility := Eight.all 0, couplingRun := 0,
    backWallMin := 0 }

/-- The element section that stands where no configuration is loaded. -/
def ElementSection.blank : ElementSection :=
  { enable := 0, key := 0, sine := 0, cosine := 0, pathScale := 0, nominalDelay := 0, pitch := 0, phase := 0,
    window := 0, iStart := 0, iEnd := 0, couplingLevel := 0, aStart := 0, aEnd := 0, pointCount := 0, deadZone := 0,
    points := [], bEnable := 0, backWallLevel := 0, bStart := 0, bEnd := 0, chainWindow := 0, chainGap := 0,
    minLength := 0, reportLevel := 0 }

/-- No configuration: what a read of the configuration finds where none is loaded. -/
def Configuration.blank : Configuration :=
  { station := StationSection.blank, element := Eight.all ElementSection.blank }

end Sys2Proof
end

