-- ==== Sys2Proof/Machine/State.lean ====
section
/-! DEFINITION. The state of the DZ-816 as plain data: one record for each block of Table 1 of the scope, the pins the
commands drive, the conditions holding the part in reset, the counter of free orders and the queue of commands waiting;
the reasons a step can stop; and the machine right after reset. -/

namespace Sys2Proof.Machine

/-! ## Odometer (Table 1-1) -/

/-- Direction of motion (R8, R9). -/
inductive Direction where
  | forward
  | backward
deriving DecidableEq, Repr

/-- A fine position: `mm` whole millimetres and `um` micrometres, 0 to 999 (scope section 3.2). -/
structure FinePos where
  mm : Int
  um : Nat
deriving DecidableEq, Repr

/-- The recognised lift state (R12). -/
inductive LiftState where
  | raised
  | lowered
deriving DecidableEq, Repr

/-- The odometer's state (Table 1-1). Times are in ticks of 20 ns. The filtered levels are also the decoder's held
pair (R4): the two are equal between events. -/
structure Odometer where
  /-- R1 -/
  active : Bool
  pos : FinePos
  travel : Nat
  direction : Direction
  extreme : FinePos
  filteredA : Level
  filteredB : Level
  /-- how long line A has stood away from its filtered level, while its filter is timing (R3) -/
  timingA : Option Nat
  timingB : Option Nat
  sinceEdge : Nat
  stillMark : Bool
  /-- the level the lift filter is timing (R12) -/
  liftLevel : Level
  /-- how long it has held, while the filter is counting; none once it is recognised or the filter is not running -/
  liftHeld : Option Nat
  lift : LiftState
deriving DecidableEq, Repr

/-! ## Shot scheduler and pulser bank (Table 2-2) -/

/-- The shot in flight (Table 2-2): present in LISTENING only. -/
structure Shot where
  set : ElementSet
  /-- ticks left until the listening end -/
  listenLeft : Nat
  /-- T_f -/
  travel : Nat
  pos : FinePos
  badFired : ElementSet
deriving DecidableEq, Repr

/-- The scheduler state (Table 2-2); LISTENING carries the shot in flight, RECOVERING the ticks left until the recovery
end. -/
inductive SchedState where
  | off
  | settling
  | free
  | listening (shot : Shot)
  | recovering (left : Nat)
deriving DecidableEq, Repr

/-- The high-voltage state (R28); SETTLING carries the settle time in ticks. -/
inductive HighVoltage where
  | off
  | settling (elapsed : Nat)
  | ready
deriving DecidableEq, Repr

/-- One element's share of the scheduler's state (Table 2-2). -/
structure ElementSched where
  /-- N_e, µm -/
  nextDue : Nat
  skipCount : Nat
  onGrid : Nat
  undersampled : Bool
deriving DecidableEq, Repr

/-- The shot scheduler's state (Table 2-2). -/
structure Scheduler where
  state : SchedState
  element : Eight ElementSched
deriving DecidableEq, Repr

/-- The pulser bank's state (Table 2-2). -/
structure Pulser where
  hv : HighVoltage
  badFires : Eight Nat
deriving DecidableEq, Repr

/-! ## Chain tracker (Tables 4-1 and 4-2) -/

/-- An open chain (Table 4-2). -/
structure Chain where
  element : Element
  number : Nat
  lastTravel : Nat
  lastPos : FinePos
  lastPath : Nat
  /-- observation count n -/
  count : Nat
  peak : Nat
  peakPath : Nat
  peakPos : FinePos
  saturated : Bool
deriving DecidableEq, Repr

/-- The chain tracker's state (Table 4-1). `chains` holds the entries that are not free, in creation order. -/
structure Tracker where
  chains : List Chain
  nextNumber : Nat
  inFlight : Option ElementSet
  discarded : Nat
  dropped : Nat
deriving DecidableEq, Repr

/-! ## Indication judge (Table 5-1) -/

/-- An exclusion zone entry (R91). -/
structure Zone where
  enabled : Bool
  base : Int
  limit : Int
deriving DecidableEq, Repr

/-- The indication judge's state (Table 5-1). -/
structure Judge where
  nextSeq : Nat
  zones : Eight Zone
  rejected : Nat
  suppressed : Nat
  excess : Nat
deriving DecidableEq, Repr

/-- An element's sense, from the sign of its sine (R88). -/
inductive Sense where
  | normal
  | forward
  | backward
deriving DecidableEq, Repr

/-- The depth zone (R87). -/
inductive DepthZone where
  | head
  | web
  | foot
  | beyond
deriving DecidableEq, Repr

/-- The class of an indication with the fields only that class carries (Table 5-4). -/
inductive Body where
  | echo (depth : Nat) (zone : DepthZone) (peak : Nat) (saturated : Bool) (length : Nat)
  | bwl (extent : Nat)
deriving DecidableEq, Repr

/-- The pairing state of an indication, with the reference where it carries one (Table 5-4). -/
inductive PairState where
  | first
  | confirmed (address : BitVec 4) (sequence : Nat)
  | sole
  | late (address : BitVec 4) (sequence : Nat)
deriving DecidableEq, Repr

/-- An own indication as the judge hands it over (Table 5-4 without pairing state and reference). -/
structure Indication where
  sequence : Nat
  element : Element
  rail : Rail
  key : Nat
  sense : Sense
  x : Int
  body : Body
deriving DecidableEq, Repr

/-! ## Coverage monitor (Table 6-1) -/

/-- Whether the coverage account runs (R97, R98). -/
inductive Accounting where
  | idle
  | active
deriving DecidableEq, Repr

/-- The coupling state of an element. -/
inductive Coupling where
  | coupled
  | uncoupled
deriving DecidableEq, Repr

/-- The start of an element's current run: a bad run while COUPLED, a good run while UNCOUPLED. -/
structure CouplingRun where
  travel : Nat
  x : Int
deriving DecidableEq, Repr

/-- The five gap causes (Table 6-3). -/
inductive Cause where
  | uncoupled
  | lifted
  | halted
  | undersampled
  | pulser
deriving DecidableEq, Repr

/-- A gap cause set. -/
structure Causes where
  uncoupled : Bool
  lifted : Bool
  halted : Bool
  undersampled : Bool
  pulser : Bool
deriving DecidableEq, Repr

/-- The back-wall state of an element with gate B; LOST carries the open loss record's start X (R108). -/
inductive BackWall where
  | present
  | lost (startX : Int)
deriving DecidableEq, Repr

/-- One element's share of the coverage account (Table 6-1). -/
structure ElementCover where
  coupling : Coupling
  run : Option CouplingRun
  causes : Causes
  gapStart : Option Int
  backWall : BackWall
  gapTravel : Nat
deriving DecidableEq, Repr

/-- The coverage monitor's state (Table 6-1). `runMask` is the element enable mask at run start, which R107 and R113
read. -/
structure Coverage where
  accounting : Accounting
  element : Eight ElementCover
  spanIndex : Nat
  spanStart : Nat
  lastTravel : Nat
  runMask : ElementSet
deriving DecidableEq, Repr

/-! ## Pairing unit (Tables 7-2 and 7-3) -/

/-- What a peer announces of one of its elements, and its gap mark (Table 7-3). -/
structure PeerElement where
  enabled : Bool
  key : Nat
  sense : Sense
  gapOpen : Bool
deriving DecidableEq, Repr

/-- The station states (Table 9-1). -/
inductive StationState where
  | starting
  | unconfigured
  | ready
  | running
  | lifted
  | still
  | halted
deriving DecidableEq, Repr

/-- A peer table entry (Table 7-3). -/
structure Peer where
  address : BitVec 4
  rail : Rail
  state : StationState
  runNumber : BitVec 16
  element : Eight PeerElement
  lastHeard : Nat
  live : Bool
deriving DecidableEq, Repr

/-- A peer notice list entry (Table 7-3). `sole` tells SOLE from FIRST, the only two states stored; `depth` is absent
in a BWL notice. -/
structure PeerNotice where
  sender : BitVec 4
  sequence : Nat
  element : Element
  rail : Rail
  key : Nat
  sense : Sense
  sole : Bool
  x : Int
  /-- some depth for class ECHO, none for class BWL -/
  depth : Option Nat
  arrival : Nat
deriving DecidableEq, Repr

/-- An own pairing list entry (Table 7-3): the indication as it was queued, FIRST or SOLE, and the travel at close. -/
structure OwnEntry where
  indication : Indication
  sole : Bool
  travel : Nat
deriving DecidableEq, Repr

/-- The pairing unit's state (Table 7-2). -/
structure Pairing where
  runMark : Bool
  peers : List Peer
  notices : List PeerNotice
  own : List OwnEntry
  lost : Nat
deriving DecidableEq, Repr

/-! ## Link controller (chapter 8) -/

/-- A frame: byte 0 is `priority` and `kind`, byte 1 `source` and the payload length; the CRC is computed (section
8.2). -/
structure Frame where
  priority : BitVec 2
  kind : BitVec 6
  source : BitVec 4
  payload : List Byte
deriving DecidableEq, Repr

/-- The transmitter states (Table 8-7). -/
inductive TxState where
  | idle
  | waiting
  | sending
  | backedOff
  | silenced
deriving DecidableEq, Repr

/-- The receiver states (Table 8-3). FRAME carries the bits collected, in the order heard, and, when the part's own
transmitter stopped driving that frame, by a transmit error or at a pulse that is no bit of it, how many bits the receiver
held then (R136, R139, R144). -/
inductive RxState where
  | inactive
  | seeking
  | idle
  | frame (bits : List Bool) (stoppedAt : Option Nat)
deriving DecidableEq, Repr

/-- The ten outcome counters (Table 8-11). -/
structure Outcomes where
  sent : Nat
  lost : Nat
  txError : Nat
  aborted : Nat
  received : Nat
  rxCrc : Nat
  rxForm : Nat
  overrun : Nat
  unknown : Nat
  noise : Nat
deriving DecidableEq, Repr

/-- The four drop counters (R148). -/
structure Drops where
  indication : Nat
  gap : Nat
  span : Nat
  other : Nat
deriving DecidableEq, Repr

/-- The link controller's state. `quiet` is how long the line has been recessive since the last release that counts
(R138), in ticks. `pulse` is the dominant pulse now on the line, with how long it has lasted, in ticks, up to the first
that is past 2 ms (R137, R142, R147). -/
structure Link where
  txQueue : List Frame
  rxQueue : List Frame
  tx : TxState
  rx : RxState
  quiet : Nat
  pulse : Option Nat
  counts : Outcomes
  drops : Drops
deriving DecidableEq, Repr

/-! ## Station control (Table 9-1) and configuration loader -/

/-- The fault kinds (Table 9-5); OVERFLOW is a notice kind and never a record. -/
inductive FaultKind where
  | pulser
  | encoder
  | chainFull
  | txqFull
  | rxqOverrun
  | linkStuck
  | addressClash
  | overflow
deriving DecidableEq, Repr

/-- A fault record (R172). `arg` is the element or peer address, 0 for the kinds that have none. -/
structure FaultRecord where
  kind : FaultKind
  arg : BitVec 4
  position : Option Int
  runNumber : BitVec 16
  index : Nat
deriving DecidableEq, Repr

/-- The fault file (Table 9-1). -/
structure FaultFile where
  records : List FaultRecord
  overflow : Bool
  firstIndex : Nat
deriving DecidableEq, Repr

/-- The three episode marks (R174). -/
structure Episodes where
  chainFull : Bool
  txqFull : Bool
  rxqOverrun : Bool
deriving DecidableEq, Repr

/-- Station control's state (Table 9-1). `liftFromStill` remembers that the lift in progress was entered from STILL,
which R27 reads. -/
structure Control where
  state : StationState
  address : BitVec 4
  rail : Rail
  cause : ResetCause
  config : Option Configuration
  configuredMask : ElementSet
  enableMask : ElementSet
  faultOffset : Nat
  imageId : BitVec 16
  runNumber : BitVec 16
  runEndPending : Bool
  faults : FaultFile
  episodes : Episodes
  liftFromStill : Bool
deriving DecidableEq, Repr

/-- The configuration loader's memory port (R160): whether the memory is selected on MSEL_N, the bytes clocked out on
MOUT and those clocked in on MIN in this load, and the clock periods it has taken. -/
structure Loader where
  selected : Bool
  sentBytes : List Byte
  image : List Byte
  clocks : Nat
deriving DecidableEq, Repr

/-- The conditions that have arisen while the part is held in reset (R157). -/
structure Hold where
  power : Bool
  line : Bool
  supply : Bool
deriving DecidableEq, Repr

/-- The present levels of the sensor lines (Table 4 of the scope). -/
structure Pins where
  encA : Level
  encB : Level
  lift : Level
deriving DecidableEq, Repr

/-! ## The whole part -/

/-- The state of the DZ-816. The receiver and gate processor holds no state (R41). `free` counts the free orders taken
(assumption log 1) and `pending` is the queue of commands waiting, first in, first out: both are the model's own. -/
structure State where
  odo : Odometer
  sched : Scheduler
  pulser : Pulser
  tracker : Tracker
  judge : Judge
  cover : Coverage
  pair : Pairing
  link : Link
  control : Control
  loader : Loader
  hold : Hold
  pins : Pins
  free : Nat
  pending : List Instr
deriving DecidableEq, Repr

/-! ## The reasons a step can stop -/

/-- Why a step faults. The manual gives every command of the table an effect in every state, so no meaning raises a
fault; the type has no constructor. Safe: nothing stops here. -/
inductive Fault where
deriving DecidableEq, Repr

/-- Why a step is refused. -/
inductive Refusal where
  /-- A command with no meaning yet, raised in an arm of `exec` alone: safe. No arm raises it. -/
  | notModelled (mnemonic : String)
deriving DecidableEq, Repr

/-! ## After reset -/

/-- The column "After any reset" of Table 1-1. The filtered levels and the lift level wait for activation, which takes
them from the lines (R1, R2): assumption log 3. -/
def Odometer.afterReset : Odometer :=
  { active := false, pos := ⟨0, 0⟩, travel := 0, direction := .forward, extreme := ⟨0, 0⟩, filteredA := .low,
    filteredB := .low, timingA := none, timingB := none, sinceEdge := 0, stillMark := false, liftLevel := .low,
    liftHeld := none, lift := .lowered }

/-- The scheduler's share of the column "After any reset" of Table 2-2 (R18). -/
def Scheduler.afterReset : Scheduler := { state := .off, element := Eight.all ⟨0, 0, 0, false⟩ }

/-- The pulser bank's share of the column "After any reset" of Table 2-2 (R18). -/
def Pulser.afterReset : Pulser := { hv := .off, badFires := Eight.all 0 }

/-- The column "After any reset" of Table 4-1 (R58). -/
def Tracker.afterReset : Tracker := { chains := [], nextNumber := 1, inFlight := none, discarded := 0, dropped := 0 }

/-- The column "After any reset" of Table 5-1 (R79). A disabled entry's base and limit play no part in any test (R91);
the model holds 0 (assumption log 4). -/
def Judge.afterReset : Judge :=
  { nextSeq := 1, zones := Eight.all ⟨false, 0, 0⟩, rejected := 0, suppressed := 0, excess := 0 }

/-- The empty cause set. -/
def Causes.empty : Causes := ⟨false, false, false, false, false⟩

/-- One element's coverage account before anything has happened (R97, R98). -/
def ElementCover.fresh : ElementCover :=
  { coupling := .coupled, run := none, causes := Causes.empty, gapStart := none, backWall := .present, gapTravel := 0 }

/-- The column "After any reset" of Table 6-1 (R97). -/
def Coverage.afterReset : Coverage :=
  { accounting := .idle, element := Eight.all ElementCover.fresh, spanIndex := 0, spanStart := 0, lastTravel := 0,
    runMask := noElements }

/-- The column "After any reset" of Table 7-2 (R114). -/
def Pairing.afterReset : Pairing := { runMark := false, peers := [], notices := [], own := [], lost := 0 }

/-- All outcome counters at 0 (R155). -/
def Outcomes.zero : Outcomes := ⟨0, 0, 0, 0, 0, 0, 0, 0, 0, 0⟩

/-- All drop counters at 0 (R155). -/
def Drops.zero : Drops := ⟨0, 0, 0, 0⟩

/-- The link controller after any reset (R141). -/
def Link.afterReset : Link :=
  { txQueue := [], rxQueue := [], tx := .idle, rx := .inactive, quiet := 0, pulse := none, counts := Outcomes.zero,
    drops := Drops.zero }

/-- The empty fault file (R158). -/
def FaultFile.empty : FaultFile := { records := [], overflow := false, firstIndex := 0 }

/-- No episode in progress. -/
def Episodes.none : Episodes := ⟨false, false, false⟩

/-- Station control after a reset of the given cause, with the address and the rail its straps gave and the given fault
file (Table 9-1, R158, R159). -/
def Control.afterReset (cause : ResetCause) (address : BitVec 4) (rail : Rail) (faults : FaultFile) : Control :=
  { state := .starting, address := address, rail := rail, cause := cause, config := none,
    configuredMask := noElements, enableMask := noElements, faultOffset := 0, imageId := 0, runNumber := 0,
    runEndPending := false, faults := faults, episodes := Episodes.none, liftFromStill := false }

/-- The loader at the start of STARTING: the memory selected, the read command 0x03 and the address 0 clocked out
(R160). -/
def Loader.started : Loader := { selected := true, sentBytes := [0x03, 0x00, 0x00], image := [], clocks := 24 }

/-- The loader with the memory not selected. -/
def Loader.idle : Loader := { selected := false, sentBytes := [], image := [], clocks := 0 }

/-- Not held in reset. -/
def Hold.none : Hold := ⟨false, false, false⟩

/-- The machine right after reset: a POWER reset has ended, with the straps reading address 0 and LEFT and every sensor
line low (assumption logs 2 and 3), STARTING has begun, and no command waits. -/
def State.reset : State :=
  { odo := Odometer.afterReset, sched := Scheduler.afterReset, pulser := Pulser.afterReset,
    tracker := Tracker.afterReset, judge := Judge.afterReset, cover := Coverage.afterReset, pair := Pairing.afterReset,
    link := Link.afterReset, control := Control.afterReset .power 0 .left FaultFile.empty, loader := Loader.started,
    hold := Hold.none, pins := ⟨.low, .low, .low⟩, free := 0, pending := [] }

/-! ## Reading the configuration -/

/-- The configuration in force (Table 9-1), or the blank one where none is loaded. -/
def State.config (s : State) : Configuration := s.control.config.getD Configuration.blank

/-- The station section in force. -/
def State.station (s : State) : StationSection := s.config.station

/-- Element `e`'s section in force. -/
def State.elem (s : State) (e : Element) : ElementSection := s.config.element.get e

/-! ## Changing one block -/

/-- `s` with its `odo` block changed by `f`. -/
def State.modOdo (f : Odometer → Odometer) (s : State) : State := { s with odo := f s.odo }

/-- `s` with its `sched` block changed by `f`. -/
def State.modSched (f : Scheduler → Scheduler) (s : State) : State := { s with sched := f s.sched }

/-- `s` with its `pulser` block changed by `f`. -/
def State.modPulser (f : Pulser → Pulser) (s : State) : State := { s with pulser := f s.pulser }

/-- `s` with its `tracker` block changed by `f`. -/
def State.modTracker (f : Tracker → Tracker) (s : State) : State := { s with tracker := f s.tracker }

/-- `s` with its `judge` block changed by `f`. -/
def State.modJudge (f : Judge → Judge) (s : State) : State := { s with judge := f s.judge }

/-- `s` with its `cover` block changed by `f`. -/
def State.modCover (f : Coverage → Coverage) (s : State) : State := { s with cover := f s.cover }

/-- `s` with its `pair` block changed by `f`. -/
def State.modPair (f : Pairing → Pairing) (s : State) : State := { s with pair := f s.pair }

/-- `s` with its `link` block changed by `f`. -/
def State.modLink (f : Link → Link) (s : State) : State := { s with link := f s.link }

/-- `s` with its `control` block changed by `f`. -/
def State.modControl (f : Control → Control) (s : State) : State := { s with control := f s.control }

end Sys2Proof.Machine
end

