-- ==== Sys2Proof/Machine/Arith.lean ====
section
/-! DEFINITION. The arithmetic conventions of scope section 3.3 (saturation, rounding to nearest with halves away from
zero, floor division), fine positions in micrometres, car positions (R14), and
the free orders in which the blocks that one event reaches act. -/

namespace Sys2Proof.Machine

/-- A 16-bit counter that saturates at 65535 (scope section 3.3). -/
def sat16 (n : Nat) : Nat := min n Config.counterMax

/-- One more on a 16-bit saturating counter. -/
def bump (n : Nat) : Nat := sat16 (n + 1)

/-- Saturation to the signed 32-bit range of positions (R14). -/
def satPosition (x : Int) : Int := max Config.positionMin (min Config.positionMax x)

/-- `n ÷ 16384` rounded to nearest, halves away from zero (R62, R85). -/
def roundQ14 (n : Int) : Int := if 0 ≤ n then (n + 8192) / 16384 else -((-n + 8192) / 16384)

/-- The distance of two integers, without sign. -/
def distance (a b : Int) : Nat := (a - b).natAbs

/-- A fine position in micrometres. -/
def FinePos.micros (p : FinePos) : Int := 1000 * p.mm + p.um

/-- The fine position of a number of micrometres: whole millimetres rounded down, remainder 0 to 999 (scope section
3.2). -/
def FinePos.ofMicros (v : Int) : FinePos := ⟨v / 1000, (v % 1000).toNat⟩

/-- `p` moved by `d` µm, saturated at −2147483648 mm 0 µm and 2147483647 mm 999 µm (R5). -/
def FinePos.move (p : FinePos) (d : Int) : FinePos :=
  FinePos.ofMicros (max (1000 * Config.positionMin) (min (1000 * Config.positionMax + 999) (p.micros + d)))

/-- The car position formed from fine position `p`, mount offset `o` and an along offset in µm (R14). -/
def carPosition (o : Int) (p : FinePos) (along : Int) : Int :=
  satPosition (p.mm + o + (p.um + along + 500) / 1000)

/-- The current car position (R15). -/
def State.currentX (s : State) : Int := carPosition s.station.mountOffset s.odo.pos 0

/-- The car position of a shot latched at fine position `p` (R15). -/
def State.shotX (s : State) (p : FinePos) : Int := carPosition s.station.mountOffset p 0

/-! ## Free orders (assumption log 1) -/

/-- What one event tells a block in several acts: the travel advance, the fire, and the disable of an element. -/
inductive Tell where
  | advance
  | fire
  | disable (e : Element)
deriving DecidableEq, Repr

/-- The block an act belongs to, where it takes the tells of one event one after another, each worked whole: the chain
tracker (R60, R72) and the coverage monitor (R102, R106); `loose` is an act of no such tell. -/
inductive Mark where
  | loose
  | tracker (t : Tell)
  | monitor (t : Tell)
deriving DecidableEq, Repr

/-- Two different tells of one block. -/
def Mark.clash : Mark → Mark → Bool
  | .tracker a, .tracker b => a != b
  | .monitor a, .monitor b => a != b
  | .tracker _, .monitor _ => false
  | .monitor _, .tracker _ => false
  | .loose, _ => false
  | _, .loose => false

/-- A lane's next item can be taken while the tells `busy` are under way: none of them is another tell of its block. -/
def takeable {α : Type} (busy : List Mark) : List (Mark × α) → Bool
  | [] => false
  | (mark, _) :: _ => busy.all fun b => !b.clash mark

/-- The tells under way after an item of mark `mark` is taken from before `rest`: its own ends with its last item. -/
def busyAfter {α : Type} (mark : Mark) (busy : List Mark) (rest : List (Mark × α)) : List Mark :=
  let others := busy.filter fun b => b != mark
  match rest with
  | [] => others
  | (next, _) :: _ => if next = mark then mark :: others else others

/-- The places of the lanes whose next item can be taken. -/
def ableLanes {α : Type} (busy : List Mark) (lanes : List (List (Mark × α))) : List Nat :=
  (List.range lanes.length).filter fun i => takeable busy (lanes.getD i [])

/-- A free order of the items of several lanes that keeps each lane's own order (assumption log 1). The items of two tells
of one block never mix. Each place takes the next item of one of the lanes that can give one, the lane the free number of
that place points at. -/
def freeMerge {α : Type} (pick : Nat → Nat) : Nat → List Mark → List (List (Mark × α)) → List α
  | 0, _, _ => []
  | fuel + 1, busy, lanes =>
    let able := ableLanes busy lanes
    let i := able.getD (pick fuel % able.length) 0
    match lanes.getD i [] with
    | [] => []
    | (mark, a) :: rest => a :: freeMerge pick fuel (busyAfter mark busy rest) (lanes.set i rest)

/-- One act of a block at an event, with its mark. -/
abbrev Act := Mark × (State → State)

/-- Runs the acts of several blocks that one event reaches, one lane of acts for each block, in the free order number
`s.free`. -/
def State.inFreeOrder (ord : Nat → Nat → Nat) (lanes : List (List Act)) (s : State) : State :=
  (freeMerge (ord s.free) lanes.flatten.length [] lanes).foldl (fun t act => act t) { s with free := s.free + 1 }

/-- The sense of an element, from the sign of its sine (R88). -/
def senseOfSine (sine : Int) : Sense := if 0 < sine then .forward else if sine < 0 then .backward else .normal

/-- The depth zone of a depth in 0.1 mm under the boundaries of the station section (R87). -/
def depthZone (c : StationSection) (depth : Nat) : DepthZone :=
  if depth < 10 * c.b1 then .head
  else if depth < 10 * c.b2 then .web
  else if depth < 10 * c.b3 then .foot
  else .beyond

/-- Matrix entries (i, j) and (j, i) both say compatible (R21). -/
def compatible (c : StationSection) (i j : Element) : Bool :=
  (c.compatibility.get i).getLsbD (7 - j.val) && (c.compatibility.get j).getLsbD (7 - i.val)

end Sys2Proof.Machine
end

