-- ==== Sys2Proof/Machine/Operands.lean ====
section
/-! DEFINITION. The forms of the commands' operands: link frames and their payload layouts (chapter 10), the CRC-8 and
the judgement of received bits (R139, R140), the classes of dominant pulses (Table 8-2), and the configuration image
with its checks (R160 to R163, R178). -/

namespace Sys2Proof.Machine

/-! ## Frame kinds (Tables 8-5 and 10-1) -/

def Kind.halt : BitVec 6 := 0x01
def Kind.stop : BitVec 6 := 0x02
def Kind.run : BitVec 6 := 0x03
def Kind.zone : BitVec 6 := 0x04
def Kind.flush : BitVec 6 := 0x05
def Kind.clear : BitVec 6 := 0x06
def Kind.query : BitVec 6 := 0x07
def Kind.fault : BitVec 6 := 0x10
def Kind.status : BitVec 6 := 0x11
def Kind.indication : BitVec 6 := 0x18
def Kind.gap : BitVec 6 := 0x19
def Kind.span : BitVec 6 := 0x20
def Kind.announce : BitVec 6 := 0x21

/-- A row of Table 8-5. -/
structure KindRow where
  code : BitVec 6
  request : Bool
  priority : BitVec 2
  length : Nat
deriving DecidableEq, Repr

/-- Table 8-5. -/
def kindTable : List KindRow :=
  [⟨Kind.halt, true, 0, 1⟩, ⟨Kind.stop, true, 1, 1⟩, ⟨Kind.run, true, 1, 7⟩, ⟨Kind.zone, true, 1, 10⟩,
   ⟨Kind.flush, true, 1, 3⟩, ⟨Kind.clear, true, 1, 1⟩, ⟨Kind.query, true, 1, 2⟩, ⟨Kind.fault, false, 1, 9⟩,
   ⟨Kind.status, false, 1, 14⟩, ⟨Kind.indication, false, 2, 15⟩, ⟨Kind.gap, false, 2, 11⟩,
   ⟨Kind.span, false, 3, 14⟩, ⟨Kind.announce, false, 3, 12⟩]

/-- The row of a kind code, none for an unknown kind. -/
def kindRow (code : BitVec 6) : Option KindRow := kindTable.find? fun r => r.code == code

/-- The kind code is one of Table 8-5. -/
def knownKind (code : BitVec 6) : Bool := (kindRow code).isSome

/-- A frame of kind `code` at the kind's own priority. -/
def frameOf (code : BitVec 6) (src : BitVec 4) (payload : List Byte) : Frame :=
  { priority := ((kindRow code).map (·.priority)).getD 0, kind := code, source := src, payload := payload }

/-! ## Multi-byte fields, big-endian (R176) -/

def bytes16 (v : BitVec 16) : List Byte := [v.extractLsb' 8 8, v.extractLsb' 0 8]
def bytes32 (v : BitVec 32) : List Byte :=
  [v.extractLsb' 24 8, v.extractLsb' 16 8, v.extractLsb' 8 8, v.extractLsb' 0 8]

/-- The byte at offset `i` of a payload. -/
def byteAt (p : List Byte) (i : Nat) : Byte := p.getD i 0
def word16At (p : List Byte) (i : Nat) : BitVec 16 := byteAt p i ++ byteAt p (i + 1)
def word32At (p : List Byte) (i : Nat) : BitVec 32 :=
  (byteAt p i ++ byteAt p (i + 1)) ++ (byteAt p (i + 2) ++ byteAt p (i + 3))

/-- A signed position as its 32-bit field. -/
def positionField (x : Int) : BitVec 32 := BitVec.ofInt 32 x

/-- One bit as a one-bit field. -/
def flagBit (b : Bool) : BitVec 1 := BitVec.ofBool b

/-- The mask byte of a set of elements: element e in bit e (R176). -/
def maskByte (m : ElementSet) : Byte :=
  flagBit m.e7 ++ flagBit m.e6 ++ flagBit m.e5 ++ flagBit m.e4 ++ flagBit m.e3 ++ flagBit m.e2 ++ flagBit m.e1 ++
    flagBit m.e0

/-- The set of elements of a mask byte. -/
def maskSet (b : Byte) : ElementSet := Eight.ofFn fun e => b.getLsbD e.val

/-- A counter carried in one byte: its value, or 255 from 255 on (R176). -/
def byteCounter (n : Nat) : Byte := BitVec.ofNat 8 (min n 255)

/-- A counter carried in two bytes. -/
def wordCounter (n : Nat) : BitVec 16 := BitVec.ofNat 16 n

/-! ## Codes of Tables 10-4, 10-8 and 10-9 -/

def senseCode : Sense → BitVec 2
  | .normal => 0
  | .forward => 1
  | .backward => 2

def senseOf (c : BitVec 2) : Option Sense :=
  if c = 0 then some .normal else if c = 1 then some .forward else if c = 2 then some .backward else none

def stationCode : StationState → BitVec 3
  | .starting => 0
  | .unconfigured => 1
  | .ready => 2
  | .running => 3
  | .lifted => 4
  | .still => 5
  | .halted => 6

/-- 0 and 7 are undefined (Table 10-8). -/
def stationOf (c : BitVec 3) : Option StationState :=
  if c = 1 then some .unconfigured else if c = 2 then some .ready else if c = 3 then some .running
  else if c = 4 then some .lifted else if c = 5 then some .still else if c = 6 then some .halted else none

def causeCode : ResetCause → BitVec 2
  | .power => 0
  | .line => 1
  | .supply => 2

def causeOf (c : BitVec 2) : Option ResetCause :=
  if c = 0 then some .power else if c = 1 then some .line else if c = 2 then some .supply else none

def railBit : Rail → Bool
  | .left => false
  | .right => true

def railOf (b : Bool) : Rail := if b then .right else .left

def depthZoneCode : DepthZone → BitVec 2
  | .head => 0
  | .web => 1
  | .foot => 2
  | .beyond => 3

def faultCode : FaultKind → BitVec 3
  | .pulser => 0
  | .encoder => 1
  | .chainFull => 2
  | .txqFull => 3
  | .rxqOverrun => 4
  | .linkStuck => 5
  | .addressClash => 6
  | .overflow => 7

def gapCauseCode : Cause → BitVec 3
  | .uncoupled => 0
  | .lifted => 1
  | .halted => 2
  | .undersampled => 3
  | .pulser => 4

/-- The sixth value of a GAP notice's cause field (R105). -/
def runEndCode : BitVec 3 := 5

/-! ## Payload layouts: encoding -/

/-- Table 10-4. -/
def indicationPayload (f : IndicationFields) : List Byte :=
  bytes16 f.sequence ++
  [(f.element ++ flagBit f.rail ++ flagBit f.bwl ++ f.state ++ flagBit f.saturated : BitVec 8),
   (f.key ++ f.sense ++ f.zone : BitVec 8)] ++
  bytes32 f.x ++ bytes16 f.size ++ [f.peak, f.length, (f.refAddress ++ (0 : BitVec 4) : BitVec 8)] ++
  bytes16 f.refSequence

/-- Table 10-6. -/
def gapPayload (f : GapFields) : List Byte :=
  [(flagBit f.close ++ (0 : BitVec 4) ++ f.cause : BitVec 8), f.mask] ++ bytes32 f.startX ++ bytes32 f.endX ++ [0]

/-- Table 10-7. -/
def spanPayload (f : SpanFields) : List Byte := bytes16 f.index ++ bytes32 f.endX ++ f.tested.toList

/-- The six descriptor bytes: eight groups of six bits, element 0 in the highest (Table 10-8). -/
def descriptorWord (d : Eight (BitVec 6)) : BitVec 48 :=
  d.e0 ++ d.e1 ++ d.e2 ++ d.e3 ++ d.e4 ++ d.e5 ++ d.e6 ++ d.e7

def bytes48 (v : BitVec 48) : List Byte :=
  [v.extractLsb' 40 8, v.extractLsb' 32 8, v.extractLsb' 24 8, v.extractLsb' 16 8, v.extractLsb' 8 8,
   v.extractLsb' 0 8]

/-- Table 10-8. -/
def announcePayload (f : AnnounceFields) : List Byte :=
  [(flagBit f.fresh ++ f.state ++ f.cause ++ flagBit f.rail ++ (0 : BitVec 1) : BitVec 8)] ++ bytes16 f.runNumber ++
  bytes16 f.imageId ++ [f.mask] ++ bytes48 (descriptorWord f.descriptors)

/-- Table 10-9. -/
def faultPayload (f : FaultFields) : List Byte :=
  [(f.kind ++ flagBit f.hasPosition ++ f.arg : BitVec 8)] ++ bytes16 f.index ++ bytes32 f.x ++ bytes16 f.runNumber

/-- The 13 bytes of a STATUS page, the first highest. -/
def bytes104 (v : BitVec 104) : List Byte :=
  [v.extractLsb' 96 8, v.extractLsb' 88 8, v.extractLsb' 80 8, v.extractLsb' 72 8, v.extractLsb' 64 8,
   v.extractLsb' 56 8, v.extractLsb' 48 8, v.extractLsb' 40 8, v.extractLsb' 32 8, v.extractLsb' 24 8,
   v.extractLsb' 16 8, v.extractLsb' 8 8, v.extractLsb' 0 8]

/-- Table 10-10. -/
def statusPayload (f : StatusFields) : List Byte := f.page :: bytes104 f.body

/-! ## Payload layouts: decoding (R177: reserved bits are not read) -/

def decodeIndication (p : List Byte) : IndicationFields :=
  { sequence := word16At p 0
    element := (byteAt p 2).extractLsb' 5 3
    rail := (byteAt p 2).getLsbD 4
    bwl := (byteAt p 2).getLsbD 3
    state := (byteAt p 2).extractLsb' 1 2
    saturated := (byteAt p 2).getLsbD 0
    key := (byteAt p 3).extractLsb' 4 4
    sense := (byteAt p 3).extractLsb' 2 2
    zone := (byteAt p 3).extractLsb' 0 2
    x := word32At p 4
    size := word16At p 8
    peak := byteAt p 10
    length := byteAt p 11
    refAddress := (byteAt p 12).extractLsb' 4 4
    refSequence := word16At p 13 }

def decodeGap (p : List Byte) : GapFields :=
  { close := (byteAt p 0).getLsbD 7
    cause := (byteAt p 0).extractLsb' 0 3
    mask := byteAt p 1
    startX := word32At p 2
    endX := word32At p 6 }

def decodeSpan (p : List Byte) : SpanFields :=
  { index := word16At p 0
    endX := word32At p 2
    tested := Eight.ofFn fun e => byteAt p (6 + e.val) }

def word48At (p : List Byte) (i : Nat) : BitVec 48 := word16At p i ++ word32At p (i + 2)

def decodeAnnounce (p : List Byte) : AnnounceFields :=
  { fresh := (byteAt p 0).getLsbD 7
    state := (byteAt p 0).extractLsb' 4 3
    cause := (byteAt p 0).extractLsb' 2 2
    rail := (byteAt p 0).getLsbD 1
    runNumber := word16At p 1
    imageId := word16At p 3
    mask := byteAt p 5
    descriptors := Eight.ofFn fun e => (word48At p 6).extractLsb' (42 - 6 * e.val) 6 }

def decodeFault (p : List Byte) : FaultFields :=
  { kind := (byteAt p 0).extractLsb' 5 3
    hasPosition := (byteAt p 0).getLsbD 4
    arg := (byteAt p 0).extractLsb' 0 4
    index := word16At p 1
    x := word32At p 3
    runNumber := word16At p 7 }

def word104At (p : List Byte) (i : Nat) : BitVec 104 :=
  byteAt p i ++ word48At p (i + 1) ++ word48At p (i + 7)

def decodeStatus (p : List Byte) : StatusFields := { page := byteAt p 0, body := word104At p 1 }

/-! ## Frames and the commands they stand for -/

/-- The frame of a command that is a frame on the link; none for the other commands. Reserved bits are sent as zeros
(R176). -/
def commandFrame : Instr → Option Frame
  | .run src dest n start => some (frameOf Kind.run src (dest :: (bytes16 n ++ bytes32 start)))
  | .stop src dest => some (frameOf Kind.stop src [dest])
  | .halt src dest => some (frameOf Kind.halt src [dest])
  | .zone src dest index base limit =>
    some (frameOf Kind.zone src (dest :: index :: (bytes32 base ++ bytes32 limit)))
  | .flush src dest scope peer => some (frameOf Kind.flush src [dest, scope, ((0 : BitVec 4) ++ peer : BitVec 8)])
  | .clear src dest => some (frameOf Kind.clear src [dest])
  | .query src dest page => some (frameOf Kind.query src [dest, page])
  | .announce src f => some (frameOf Kind.announce src (announcePayload f))
  | .indication src f => some (frameOf Kind.indication src (indicationPayload f))
  | .gap src f => some (frameOf Kind.gap src (gapPayload f))
  | .span src f => some (frameOf Kind.span src (spanPayload f))
  | .fault src f => some (frameOf Kind.fault src (faultPayload f))
  | .status src f => some (frameOf Kind.status src (statusPayload f))
  | .unknownKind src kind payload => some (frameOf kind src payload)
  | .reset _ _ => none
  | .startingEnd _ => none
  | .encoderLineChange _ _ => none
  | .encoderLevelAccepted _ _ => none
  | .stillness => none
  | .liftLineChange _ => none
  | .liftRecognised _ => none
  | .listeningEnd _ => none
  | .recoveryEnd _ => none
  | .settleComplete _ => none
  | .runEnd => none
  | .lineIdle _ => none
  | .frameEnd => none
  | .arbitrationLost => none
  | .transmitError _ => none
  | .haltSymbol _ => none
  | .stuckLine => none
  | .noisePulse _ => none
  | .formError _ => none
  | .leadMark _ => none
  | .bitReceived _ => none
  | .waitForIdleRestart _ => none
  | .heldInReset _ => none

/-- The command a received frame stands for: a frame is known by its kind code alone (remark after Table 8-5), and
reserved bits are not read (R177). -/
def frameCommand (f : Frame) : Instr :=
  let p := f.payload
  if f.kind = Kind.halt then .halt f.source (byteAt p 0)
  else if f.kind = Kind.stop then .stop f.source (byteAt p 0)
  else if f.kind = Kind.run then .run f.source (byteAt p 0) (word16At p 1) (word32At p 3)
  else if f.kind = Kind.zone then .zone f.source (byteAt p 0) (byteAt p 1) (word32At p 2) (word32At p 6)
  else if f.kind = Kind.flush then .flush f.source (byteAt p 0) (byteAt p 1) ((byteAt p 2).extractLsb' 0 4)
  else if f.kind = Kind.clear then .clear f.source (byteAt p 0)
  else if f.kind = Kind.query then .query f.source (byteAt p 0) (byteAt p 1)
  else if f.kind = Kind.fault then .fault f.source (decodeFault p)
  else if f.kind = Kind.status then .status f.source (decodeStatus p)
  else if f.kind = Kind.indication then .indication f.source (decodeIndication p)
  else if f.kind = Kind.gap then .gap f.source (decodeGap p)
  else if f.kind = Kind.span then .span f.source (decodeSpan p)
  else if f.kind = Kind.announce then .announce f.source (decodeAnnounce p)
  else .unknownKind f.source f.kind p

/-- The frame's kind is routed to station control (Table 8-5). -/
def Frame.toControl (f : Frame) : Bool :=
  f.kind == Kind.halt || f.kind == Kind.stop || f.kind == Kind.run || f.kind == Kind.zone || f.kind == Kind.clear ||
    f.kind == Kind.query

/-- The frame is a request (Table 8-5). -/
def Frame.isRequest (f : Frame) : Bool := ((kindRow f.kind).map (·.request)).getD false

/-- The destination byte includes a station of the given address and rail (R151). -/
def destinationIncludes (dest : Byte) (address : BitVec 4) (rail : Rail) : Bool :=
  dest == address.setWidth 8 || (dest == 0x80 && rail == .left) || (dest == 0x81 && rail == .right) || dest == 0xFF

/-! ## Bytes, bits and CRC-8 of a frame -/

/-- One shift of the CRC-8 register, polynomial x^8 + x^2 + x + 1 (R140). -/
def crc8Shift (r : Byte) : Byte := if r.msb then (r <<< 1) ^^^ 0x07#8 else r <<< 1

/-- One byte worked into the CRC-8 register. -/
def crc8Byte (r b : Byte) : Byte :=
  crc8Shift (crc8Shift (crc8Shift (crc8Shift (crc8Shift (crc8Shift (crc8Shift (crc8Shift (r ^^^ b))))))))

/-- The CRC-8 of a run of bytes (R140). -/
def crc8 (bs : List Byte) : Byte := bs.foldl crc8Byte 0xFF#8

/-- Byte 0, byte 1 and the payload (Table 10-1). -/
def Frame.checked (f : Frame) : List Byte :=
  (f.priority ++ f.kind : BitVec 8) :: (f.source ++ BitVec.ofNat 4 f.payload.length : BitVec 8) :: f.payload

/-- All bytes of the frame, the CRC-8 last. -/
def Frame.bytes (f : Frame) : List Byte := f.checked ++ [crc8 f.checked]

/-- A byte's bits, most significant first. -/
def byteBits (b : Byte) : List Bool :=
  [b.getLsbD 7, b.getLsbD 6, b.getLsbD 5, b.getLsbD 4, b.getLsbD 3, b.getLsbD 2, b.getLsbD 1, b.getLsbD 0]

/-- The bits of the frame in the order they are driven (R136). -/
def Frame.bits (f : Frame) : List Bool := f.bytes.flatMap byteBits

/-- The number of bits in the arbitration field (section 8.2). -/
def arbitrationBits : Nat := 16

/-- The byte of eight bits, the most significant first. -/
def byteOfBits (b7 b6 b5 b4 b3 b2 b1 b0 : Bool) : Byte :=
  flagBit b7 ++ flagBit b6 ++ flagBit b5 ++ flagBit b4 ++ flagBit b3 ++ flagBit b2 ++ flagBit b1 ++ flagBit b0

/-- The whole bytes that received bits make, none when they make no whole number of bytes. -/
def bytesOfBits : List Bool → Option (List Byte)
  | [] => some []
  | b7 :: b6 :: b5 :: b4 :: b3 :: b2 :: b1 :: b0 :: rest =>
    (bytesOfBits rest).map fun bs => byteOfBits b7 b6 b5 b4 b3 b2 b1 b0 :: bs
  | _ => none

/-- The payload length is one the frame's kind allows (R139 check 3): any of 0 to 15 for an unknown kind. -/
def lengthOk (kind : BitVec 6) (n : Nat) : Bool :=
  match kindRow kind with
  | some r => n == r.length
  | none => n ≤ 15

/-- What the receiver judges of the bits of a frame (R139). -/
inductive Verdict where
  /-- check 1 fails: the bits are not 3 plus the payload length whole bytes -/
  | badShape
  /-- check 2 fails -/
  | badCrc
  /-- check 3 fails: a known kind with another length -/
  | badLength
  | good (f : Frame)
deriving DecidableEq, Repr

/-- The three checks of R139 in their order. -/
def judgeBits (bits : List Bool) : Verdict :=
  match bytesOfBits bits with
  | some (h0 :: h1 :: rest) =>
    let n := (h1.extractLsb' 0 4).toNat
    if rest.length = n + 1 then
      let payload := rest.take n
      if crc8 (h0 :: h1 :: payload) = byteAt rest n then
        let kind := h0.extractLsb' 0 6
        if lengthOk kind n then
          .good { priority := h0.extractLsb' 6 2, kind := kind, source := h1.extractLsb' 4 4, payload := payload }
        else .badLength
      else .badCrc
    else .badShape
  | _ => .badShape

/-! ## Dominant pulses (Table 8-2) -/

/-- The classes of Table 8-2. -/
inductive PulseClass where
  | noise
  | bit (b : Bool)
  | leadMark
  | formError
  | restart
  | haltSymbol
  | stuck
deriving DecidableEq, Repr

/-- The class of a pulse of `ns` nanoseconds released while the receiver is in state `rx` (R137, Table 8-2). -/
def classifyPulse (rx : RxState) (ns : Nat) : PulseClass :=
  if ns < 500 then .noise
  else if ns < 100000 then
    match rx with
    | .frame _ _ => if ns < 2000 then .bit true else if ns < 5000 then .bit false else .formError
    | .idle => if 8000 ≤ ns ∧ ns ≤ 12000 then .leadMark else .formError
    | .seeking => .restart
    | .inactive => .restart
  else if ns ≤ 2000000 then .haltSymbol
  else .stuck

/-! ## The configuration image -/

/-- The byte of the serial memory at address `i`: a memory that does not drive MIN reads 0xFF (R160). -/
def memoryByte (memory : List Byte) (i : Nat) : Byte := memory.getD i 0xFF

/-- The first `n` bytes of the serial memory. -/
def memoryBytes (memory : List Byte) (n : Nat) : List Byte := (List.range n).map (memoryByte memory)

/-- The length of the image in bytes. -/
def imageLength : Nat := 504

/-- The mark 0xD8 0x16 and the length 504 of a good image. -/
def imageHead : List Byte := [0xD8, 0x16, 0x01, 0xF8]

/-- The bytes the loader reads: 504, or 4 when the mark or the length is wrong (R160). -/
def loadedBytes (memory : List Byte) : List Byte :=
  if memoryBytes memory 4 = imageHead then memoryBytes memory imageLength else memoryBytes memory 4

/-- The clock periods a load of `n` bytes takes: 24 for the command and 8 for each byte (R160). -/
def loadClocks (n : Nat) : Nat := 24 + n * 8

/-- One shift of the CRC-16 register, polynomial 0x1021 (R161). -/
def crc16Shift (r : BitVec 16) : BitVec 16 := if r.msb then (r <<< 1) ^^^ 0x1021#16 else r <<< 1

/-- One byte worked into the CRC-16 register. -/
def crc16Byte (r : BitVec 16) (b : Byte) : BitVec 16 :=
  crc16Shift (crc16Shift (crc16Shift (crc16Shift (crc16Shift (crc16Shift (crc16Shift (crc16Shift
    (r ^^^ (b ++ (0 : BitVec 8))))))))))

/-- The CRC-16 of a run of bytes (R161). -/
def crc16 (bs : List Byte) : BitVec 16 := bs.foldl crc16Byte 0xFFFF#16

/-- The one-byte, two-byte and signed two-byte fields of the image at offset `o`. -/
def image8 (img : List Byte) (o : Nat) : Nat := (byteAt img o).toNat
def image16 (img : List Byte) (o : Nat) : Nat := (word16At img o).toNat
def imageS16 (img : List Byte) (o : Nat) : Int := (word16At img o).toInt

/-- `lo ≤ v ≤ hi`. -/
def inRange (v lo hi : Nat) : Bool := lo ≤ v && v ≤ hi

/-- The structural checks of R161 pass: mark, length, CRC-16, in that order. -/
def structurallyGood (img : List Byte) : Bool :=
  img.take 4 == imageHead && crc16 (img.take 502) == word16At img 502

/-- The station section's fields in increasing byte offset, each with whether it lies in its range (Table 10-12,
R162). -/
def stationChecks (img : List Byte) : List (Nat × Bool) :=
  [(6, -20000 ≤ imageS16 img 6 ∧ imageS16 img 6 ≤ 20000),
   (8, inRange (image16 img 8) 20 2000),
   (10, inRange (image8 img 10) 0 1),
   (11, inRange (image8 img 11) 2 50),
   (12, inRange (image8 img 12) 0 1),
   (13, inRange (image8 img 13) 1 50),
   (14, inRange (image8 img 14) 2 100),
   (15, inRange (image8 img 15) 1 8),
   (16, inRange (image8 img 16) 2 100),
   (17, inRange (image8 img 17) 5 100),
   (18, inRange (image16 img 18) 10 1000),
   (20, inRange (image16 img 20) 10 1000),
   (22, inRange (image16 img 22) 1 500),
   (24, inRange (image16 img 24) 0 1000),
   (26, inRange (image8 img 26) 1 200),
   (27, inRange (image8 img 27) 1 255),
   (28, inRange (image8 img 28) 1 255 && image8 img 27 < image8 img 28),
   (29, inRange (image8 img 29) 1 255 && image8 img 28 < image8 img 29),
   (38, inRange (image16 img 38) 10 2000),
   (40, inRange (image16 img 40) 5 2000)]

/-- The lowest byte offset of a station field out of range (R162). -/
def stationFaultOffset (img : List Byte) : Option Nat := ((stationChecks img).find? fun c => !c.2).map (·.1)

/-- The station section (Table 10-12). -/
def stationSection (img : List Byte) : StationSection :=
  { mountOffset := imageS16 img 6
    edgePitch := image16 img 8
    encoderInvert := image8 img 10 == 1
    encoderFilter := image8 img 11
    liftActive := if image8 img 12 = 1 then .high else .low
    liftFilter := image8 img 13
    stillTime := image8 img 14
    perShotLimit := image8 img 15
    recovery := image8 img 16
    hysteresis := image8 img 17
    spanLength := image16 img 18
    silence := image16 img 20
    pairWindow := image16 img 22
    depthWindow := image16 img 24
    horizon := image8 img 26
    b1 := image8 img 27
    b2 := image8 img 28
    b3 := image8 img 29
    compatibility := Eight.ofFn fun i => byteAt img (30 + i.val)
    couplingRun := image16 img 38
    backWallMin := image16 img 40 }

/-- The element section that begins at byte `o` (Table 10-13), each field as read. -/
def elementSectionAt (img : List Byte) (o : Nat) : ElementSection :=
  { enable := image8 img o
    key := image8 img (o + 1)
    sine := imageS16 img (o + 2)
    cosine := image16 img (o + 4)
    pathScale := image16 img (o + 6)
    nominalDelay := image16 img (o + 8)
    pitch := image16 img (o + 10)
    phase := image16 img (o + 12)
    window := image16 img (o + 14)
    iStart := image16 img (o + 16)
    iEnd := image16 img (o + 18)
    couplingLevel := image8 img (o + 20)
    aStart := image16 img (o + 22)
    aEnd := image16 img (o + 24)
    pointCount := image8 img (o + 26)
    deadZone := image8 img (o + 27)
    points := [0, 1, 2, 3].map fun i => ⟨image16 img (o + 28 + 3 * i), image8 img (o + 30 + 3 * i)⟩
    bEnable := image8 img (o + 40)
    backWallLevel := image8 img (o + 41)
    bStart := image16 img (o + 42)
    bEnd := image16 img (o + 44)
    chainWindow := image16 img (o + 46)
    chainGap := image8 img (o + 48)
    minLength := image8 img (o + 49)
    reportLevel := image8 img (o + 50) }

/-- Each value is strictly less than the next. -/
def strictlyRising : List Nat → Bool
  | a :: b :: rest => a < b && strictlyRising (b :: rest)
  | _ => true

/-- The threshold points in use (Table 3-1, remark). -/
def usedPoints (c : ElementSection) : List ThresholdPoint := c.points.take c.pointCount

/-- Gate B is worked for the element. -/
def hasGateB (c : ElementSection) : Bool := c.bEnable == 1

/-- Every field of an enabled element section lies in its range and its relations hold (Table 10-13, R163). -/
def sectionInRange (c : ElementSection) : Bool :=
  inRange c.key 0 15 && (decide (-16384 ≤ c.sine) && decide (c.sine ≤ 16384)) &&
  inRange c.cosine 0 16384 && inRange c.pathScale 4096 20480 &&
  inRange c.nominalDelay 0 8191 && inRange c.pitch 1000 20000 && inRange c.phase 0 c.pitch &&
  inRange c.window 1 16383 && inRange c.iEnd c.iStart 16383 &&
  inRange c.couplingLevel 1 254 && inRange c.aEnd c.aStart 16383 &&
  inRange c.pointCount 2 4 && inRange c.deadZone 8 255 &&
  (usedPoints c).all (fun p => inRange p.u 0 16383 && inRange p.level 1 254) &&
  strictlyRising ((usedPoints c).map (·.u)) &&
  inRange c.bEnable 0 1 &&
  (!hasGateB c || (inRange c.backWallLevel 1 255 && inRange c.bEnd c.bStart 16383)) &&
  inRange c.chainWindow 100 20000 && inRange c.chainGap 2 200 && inRange c.minLength 1 15 &&
  inRange c.reportLevel 1 255

/-- The element enters the configured mask (R163): its enable field is set and its section passes. -/
def usable (c : ElementSection) : Bool := c.enable == 1 && sectionInRange c

/-- The configuration of a structurally good image. -/
def configurationOf (img : List Byte) : Configuration :=
  { station := stationSection img, element := Eight.ofFn fun e => elementSectionAt img (54 + 56 * e.val) }

/-- What the checks of R161 to R163 make of the bytes read. -/
inductive LoadOutcome where
  | structurallyBad
  | stationBad (imageId : BitVec 16) (offset : Nat)
  | good (imageId : BitVec 16) (c : Configuration)
deriving DecidableEq, Repr

/-- The checks of R161 to R163 on the bytes read. -/
def checkImage (img : List Byte) : LoadOutcome :=
  if structurallyGood img then
    match stationFaultOffset img with
    | some o => .stationBad (word16At img 4) o
    | none => .good (word16At img 4) (configurationOf img)
  else .structurallyBad

/-- The configured mask of a configuration (R163). -/
def usableMask (c : Configuration) : ElementSet := Eight.ofFn fun e => usable (c.element.get e)

end Sys2Proof.Machine
end

