-- ==== Sys2Proof/Machine/Flags.lean ====
section
/-! DEFINITION. The part's flags and counts: the link controller's outcome and drop counters (R148, R155), the episode
marks (R174), the fault file with its overflow mark (R172, R173), and gap cause sets (R102). -/

namespace Sys2Proof.Machine

/-! ## Outcome counters (Table 8-11), each saturating at 65535 -/

def Outcomes.countSent (c : Outcomes) : Outcomes := { c with sent := bump c.sent }
def Outcomes.countLost (c : Outcomes) : Outcomes := { c with lost := bump c.lost }
def Outcomes.countTxError (c : Outcomes) : Outcomes := { c with txError := bump c.txError }
def Outcomes.countAborted (c : Outcomes) : Outcomes := { c with aborted := bump c.aborted }
def Outcomes.countReceived (c : Outcomes) : Outcomes := { c with received := bump c.received }
def Outcomes.countRxCrc (c : Outcomes) : Outcomes := { c with rxCrc := bump c.rxCrc }
def Outcomes.countRxForm (c : Outcomes) : Outcomes := { c with rxForm := bump c.rxForm }
def Outcomes.countOverrun (c : Outcomes) : Outcomes := { c with overrun := bump c.overrun }
def Outcomes.countUnknown (c : Outcomes) : Outcomes := { c with unknown := bump c.unknown }
def Outcomes.countNoise (c : Outcomes) : Outcomes := { c with noise := bump c.noise }

/-- One outcome counted. -/
def Link.count (f : Outcomes → Outcomes) (l : Link) : Link := { l with counts := f l.counts }

/-- One outcome counted by the link controller. -/
def State.count (f : Outcomes → Outcomes) (s : State) : State := s.modLink (Link.count f)

/-- A notice of kind `kind` dropped by a full transmit queue, counted by kind (R148). -/
def Drops.countKind (kind : BitVec 6) (d : Drops) : Drops :=
  if kind = Kind.indication then { d with indication := bump d.indication }
  else if kind = Kind.gap then { d with gap := bump d.gap }
  else if kind = Kind.span then { d with span := bump d.span }
  else { d with other := bump d.other }

/-! ## Episode marks (R174) -/

def State.markChainFull (b : Bool) (s : State) : State :=
  s.modControl fun c => { c with episodes := { c.episodes with chainFull := b } }

def State.markTxqFull (b : Bool) (s : State) : State :=
  s.modControl fun c => { c with episodes := { c.episodes with txqFull := b } }

def State.markRxqOverrun (b : Bool) (s : State) : State :=
  s.modControl fun c => { c with episodes := { c.episodes with rxqOverrun := b } }

/-! ## The fault file (R172, R173) -/

/-- RUNNING, LIFTED or STILL (remark after Table 9-5). -/
def StationState.inRun : StationState → Bool
  | .running => true
  | .lifted => true
  | .still => true
  | .starting => false
  | .unconfigured => false
  | .ready => false
  | .halted => false

/-- The index the next record takes (R172). -/
def FaultFile.nextIndex (f : FaultFile) : Nat := sat16 (f.firstIndex + f.records.length)

/-- The record of a fault condition reported now (R172). -/
def State.faultRecord (s : State) (kind : FaultKind) (arg : BitVec 4) : FaultRecord :=
  { kind := kind
    arg := arg
    position := if s.control.state.inRun then some s.currentX else none
    runNumber := s.control.runNumber
    index := s.control.faults.nextIndex }

/-- The FAULT notice of a record (Table 10-9). -/
def faultNotice (address : BitVec 4) (r : FaultRecord) : Frame :=
  frameOf Kind.fault address (faultPayload
    { kind := faultCode r.kind
      hasPosition := r.position.isSome
      arg := r.arg
      index := BitVec.ofNat 16 r.index
      x := positionField (r.position.getD 0)
      runNumber := r.runNumber })

/-- The OVERFLOW notice: the index the record would have taken, no element, no position (R173). -/
def State.overflowNotice (s : State) : Frame :=
  faultNotice s.control.address
    { kind := .overflow, arg := 0, position := none, runNumber := s.control.runNumber,
      index := s.control.faults.nextIndex }

/-- A fault condition reported to station control: the file after it (R172, R173). -/
def State.fileFault (kind : FaultKind) (arg : BitVec 4) (s : State) : State :=
  if s.control.faults.overflow then s
  else if s.control.faults.records.length < Config.faultCapacity then
    s.modControl fun c =>
      { c with faults := { c.faults with records := c.faults.records ++ [s.faultRecord kind arg] } }
  else s.modControl fun c => { c with faults := { c.faults with overflow := true } }

/-- A fault condition reported to station control: the notice it queues (R172, R173). -/
def State.faultNoticeFor (kind : FaultKind) (arg : BitVec 4) (s : State) : Option Frame :=
  if s.control.faults.overflow then none
  else if s.control.faults.records.length < Config.faultCapacity then
    some (faultNotice s.control.address (s.faultRecord kind arg))
  else some s.overflowNotice

/-! ## Gap cause sets (Table 6-3, R102) -/

def Causes.has (c : Causes) : Cause → Bool
  | .uncoupled => c.uncoupled
  | .lifted => c.lifted
  | .halted => c.halted
  | .undersampled => c.undersampled
  | .pulser => c.pulser

/-- The set with one cause put in or taken out. -/
def Causes.put (c : Causes) (k : Cause) (b : Bool) : Causes :=
  match k with
  | .uncoupled => { c with uncoupled := b }
  | .lifted => { c with lifted := b }
  | .halted => { c with halted := b }
  | .undersampled => { c with undersampled := b }
  | .pulser => { c with pulser := b }

/-- The set holds at least one cause. -/
def Causes.nonempty (c : Causes) : Bool := c.uncoupled || c.lifted || c.halted || c.undersampled || c.pulser

end Sys2Proof.Machine
end

