-- ==== Sys2Proof/Machine/Ops.lean ====
section
/-! DEFINITION. Operations several blocks share: queueing a notice on the transmit queue (R148, R149) with the
transmitter's start on an idle line (R142), reporting a fault (R172, R173), the notices the part sends (chapter 10),
and STATUS pages (R175). -/

namespace Sys2Proof.Machine

/-! ## The transmit queue -/

/-- A frame starts at once when it arrives at the head on a line already idle, and waits otherwise, also when a dominant
pulse stands on the idle line (R142). -/
def Link.arriveAtHead (l : Link) : Link :=
  match l.tx, l.rx with
  | .idle, .inactive => l
  | .idle, .idle => { l with tx := if l.pulse.isSome then .waiting else .sending }
  | .idle, .seeking => { l with tx := .waiting }
  | .idle, .frame _ _ => { l with tx := .waiting }
  | .waiting, _ => l
  | .sending, _ => l
  | .backedOff, _ => l
  | .silenced, _ => l

/-- A notice appended at the tail, or dropped and counted by kind when the queue holds 24 frames (R148). -/
def Link.push (f : Frame) (l : Link) : Link :=
  if l.txQueue.length < Config.txCapacity then { l with txQueue := l.txQueue ++ [f] }.arriveAtHead
  else { l with drops := l.drops.countKind f.kind }

/-- Station control takes a drop that begins a TXQ_FULL episode: the mark is set, the fault is reported, and its FAULT
notice meets the same full queue (R149). -/
def State.beginTxqFull (s : State) : State :=
  let marked := s.markTxqFull true
  let filed := marked.fileFault .txqFull 0
  match marked.faultNoticeFor .txqFull 0 with
  | some g => filed.modLink (Link.push g)
  | none => filed

/-- A block queues a notice (R148); a drop with the TXQ_FULL mark clear begins an episode (R149). -/
def State.append (f : Frame) (s : State) : State :=
  let pushed := s.modLink (Link.push f)
  if s.link.txQueue.length < Config.txCapacity then pushed
  else if s.control.episodes.txqFull then pushed
  else pushed.beginTxqFull

/-- A block queues several notices, in their order. -/
def State.appendAll (fs : List Frame) (s : State) : State := fs.foldl (fun t f => t.append f) s

/-- A fault condition reported to station control: recorded, and its notice queued (R172, R173). -/
def State.reportFault (kind : FaultKind) (arg : BitVec 4) (s : State) : State :=
  let filed := s.fileFault kind arg
  match s.faultNoticeFor kind arg with
  | some g => filed.append g
  | none => filed

/-- A CHAIN_FULL report: a fault only at the first drop of an episode (R68, R174). -/
def State.reportChainFull (e : Element) (s : State) : State :=
  if s.control.episodes.chainFull then s
  else (s.markChainFull true).reportFault .chainFull (BitVec.ofNat 4 e.val)

/-- An RXQ_OVERRUN report: a fault only at the first overrun of an episode (R152, R174). -/
def State.reportRxqOverrun (s : State) : State :=
  if s.control.episodes.rxqOverrun then s
  else (s.markRxqOverrun true).reportFault .rxqOverrun 0

/-- The head frame leaves the transmit queue; a fall to 12 ends a TXQ_FULL episode (R149). The transmitter enters
WAITING, or IDLE when the queue is now empty (R144, R145). -/
def State.popHead (s : State) : State :=
  let rest := s.link.txQueue.tail
  let popped := s.modLink fun l => { l with txQueue := rest, tx := if rest.isEmpty then .idle else .waiting }
  if rest.length = Config.txRelief then popped.markTxqFull false else popped

/-! ## The part's own notices -/

/-- An element's announced key and sense: those of its section when it is in the configured mask, 0 and NORMAL when it
is not (R164). -/
def State.announcedKey (s : State) (e : Element) : Nat :=
  if s.control.configuredMask.get e then (s.elem e).key else 0

def State.announcedSense (s : State) (e : Element) : Sense :=
  if s.control.configuredMask.get e then senseOfSine (s.elem e).sine else .normal

/-- An own ANNOUNCE with the fields as they stand (R119, R164, Table 10-8). -/
def State.announceNotice (fresh : Bool) (s : State) : Frame :=
  frameOf Kind.announce s.control.address (announcePayload
    { fresh := fresh
      state := stationCode s.control.state
      cause := causeCode s.control.cause
      rail := railBit s.control.rail
      runNumber := s.control.runNumber
      imageId := s.control.imageId
      mask := maskByte s.control.enableMask
      descriptors := Eight.ofFn fun e =>
        (BitVec.ofNat 4 (s.announcedKey e) ++ senseCode (s.announcedSense e) : BitVec 6) })

/-- STATUS page 0, offsets 1 to 13 (Table 10-10). -/
def State.statusPage0 (s : State) : List Byte :=
  [((stationCode s.control.state).setWidth 4 ++ causeCode s.control.cause ++ flagBit s.control.faults.overflow ++
      (0 : BitVec 1) : BitVec 8)] ++
  bytes16 s.control.runNumber ++ bytes16 (BitVec.ofNat 16 s.control.faultOffset) ++
  [maskByte s.control.enableMask, BitVec.ofNat 8 s.control.faults.records.length] ++
  bytes16 (BitVec.ofNat 16 s.control.faults.firstIndex) ++ bytes16 s.control.imageId ++ [0, 0]

/-- STATUS page 1, offsets 1 to 13 (Table 10-10). -/
def State.statusPage1 (s : State) : List Byte :=
  let c := s.link.counts
  bytes16 (wordCounter c.sent) ++ bytes16 (wordCounter c.received) ++ bytes16 (wordCounter c.lost) ++
  [byteCounter c.txError, byteCounter c.aborted, byteCounter c.rxCrc, byteCounter c.rxForm, byteCounter c.overrun,
   byteCounter c.unknown, byteCounter c.noise]

/-- STATUS page 2, offsets 1 to 13 (Table 10-10). -/
def State.statusPage2 (s : State) : List Byte :=
  bytes16 (wordCounter s.judge.rejected) ++ bytes16 (wordCounter s.judge.suppressed) ++
  bytes16 (wordCounter s.judge.excess) ++ bytes16 (wordCounter s.tracker.dropped) ++
  bytes16 (wordCounter s.pair.lost) ++ bytes16 (wordCounter s.link.drops.indication) ++
  [byteCounter s.tracker.discarded]

/-- STATUS page 3, offsets 1 to 13 (Table 10-10, R25). -/
def State.statusPage3 (s : State) : List Byte :=
  (s.sched.element.toList.map fun e => byteCounter e.skipCount) ++ bytes16 (wordCounter s.link.drops.gap) ++
  [byteCounter s.link.drops.span] ++ bytes16 (wordCounter s.link.drops.other)

/-- The page given in answer to a page number: a number above 3 is answered with page 0 (R171). -/
def givenPage (page : Byte) : Byte := if page.toNat ≤ 3 then page else 0

/-- The 13 bytes of a page from 0 to 3. -/
def State.statusPage (page : Byte) (s : State) : List Byte :=
  if page = 1 then s.statusPage1 else if page = 2 then s.statusPage2 else if page = 3 then s.statusPage3
  else s.statusPage0

/-- The STATUS notice of a page, with the figures as they stand (R175). -/
def State.statusNotice (page : Byte) (s : State) : Frame :=
  frameOf Kind.status s.control.address (page :: s.statusPage page)

/-- Station control queues the STATUS notice of a page (R175). -/
def State.queueStatus (page : Byte) (s : State) : State := s.append (s.statusNotice page)

/-- An own ANNOUNCE is queued (R119). -/
def State.queueAnnounce (fresh : Bool) (s : State) : State := s.append (s.announceNotice fresh)

end Sys2Proof.Machine
end

