-- ==== Sys2Proof/Machine/Gates.lean ====
section
/-! DEFINITION. The receiver and gate processor (chapter 3): from an element's trace to its shot result. It holds no
state (R41): everything here is a function of the trace and the element's section. -/

namespace Sys2Proof.Machine

/-- One sample of a gate: its relative (or, in gate I, absolute) time and its amplitude. -/
structure Sample where
  at_ : Nat
  amp : Nat
deriving DecidableEq, Repr

/-- One echo of a shot result (Table 3-6). -/
structure Echo where
  u : Nat
  path : Nat
  amp : Nat
  saturated : Bool
deriving DecidableEq, Repr

/-- A shot result (Table 3-6). -/
structure ShotResult where
  element : Element
  travel : Nat
  pos : FinePos
  found : Bool
  echoes : List Echo
  backWall : Option Bool
deriving DecidableEq, Repr

/-! ## The trace and its gates (R38, R42, R45) -/

/-- The amplitudes of a trace from tick 0 to tick V − 1 (R38). -/
def traceSamples (v : Nat) (trace : List Byte) : List Nat :=
  (trace.take v).map (·.toNat) ++ List.replicate (v - trace.length) 0

/-- Amplitudes given consecutive times from `t` on. -/
def stampFrom (t : Nat) : List Nat → List Sample
  | [] => []
  | a :: rest => ⟨t, a⟩ :: stampFrom (t + 1) rest

/-- The samples of a gate from `lo` to `hi` ticks after tick `ref`, cut at the end of the trace, with their times
relative to `ref` (R42, R45). -/
def gateSamples (samples : List Nat) (ref lo hi : Nat) : List Sample :=
  stampFrom lo ((samples.drop (ref + lo)).take (hi + 1 - lo))

/-- The first of the samples that hold the largest amplitude (R43, R49). -/
def peakSample (first : Sample) (rest : List Sample) : Sample :=
  rest.foldl (fun best x => if best.amp < x.amp then x else best) first

/-! ## Gate I (R43, R44) -/

/-- What gate I gives: whether the interface was found, the reference time and the interface amplitude. -/
structure GateI where
  found : Bool
  tRef : Nat
  amp : Nat
deriving DecidableEq, Repr

/-- The first run at or above the coupling level gives the reference; with none, the nominal delay (R43, R44). -/
def gateI (c : ElementSection) (samples : List Nat) : GateI :=
  let gate := gateSamples samples 0 c.iStart c.iEnd
  match (gate.dropWhile fun x => x.amp < c.couplingLevel).takeWhile fun x => c.couplingLevel ≤ x.amp with
  | x :: rest => ⟨true, (peakSample x rest).at_, (peakSample x rest).amp⟩
  | [] => ⟨false, c.nominalDelay, gate.foldl (fun m x => max m x.amp) 0⟩

/-! ## Gate A (R47 to R53) -/

/-- The threshold level at relative time `u` (R47). -/
def thresholdLevel (u : Nat) : List ThresholdPoint → Int
  | [] => 0
  | [p] => p.level
  | p :: q :: rest =>
    if u ≤ p.u then p.level
    else if u < q.u then
      p.level + Int.tdiv (((q.level : Int) - p.level) * ((u : Int) - p.u)) ((q.u : Int) - p.u)
    else thresholdLevel u (q :: rest)

/-- The sample is at or above the threshold level at its own time (R48). -/
def atOrAbove (points : List ThresholdPoint) (x : Sample) : Bool := thresholdLevel x.at_ points ≤ (x.amp : Int)

/-- The peak of every echo of gate A, would-be echoes included, in order (R48 to R51). Each round finds the next
beginning, follows the echo to its end and waits out the dead zone. `fuel` is the number of samples. -/
def echoPeaks (points : List ThresholdPoint) (deadZone : Nat) : Nat → List Sample → List Sample
  | 0, _ => []
  | fuel + 1, samples =>
    match samples.dropWhile fun x => !atOrAbove points x with
    | [] => []
    | x :: rest =>
      let run := rest.takeWhile (atOrAbove points)
      let after := rest.dropWhile (atOrAbove points)
      peakSample x run ::
        match after with
        | [] => []
        | y :: _ => echoPeaks points deadZone fuel (after.dropWhile fun z => z.at_ < y.at_ + deadZone)

/-- The sound path of an echo time (R53). -/
def soundPath (u k : Nat) : Nat := (u * k + 128) / 256

/-- The greatest number of echoes in a shot result (R51). -/
def maxEchoes : Nat := 3

/-- An echo of the shot result from the peak of its samples (R49, R53). -/
def echoOf (k : Nat) (x : Sample) : Echo :=
  { u := x.at_, path := soundPath x.at_ k, amp := x.amp, saturated := x.amp == 255 }

/-! ## One trace worked (R39, R54, R55) -/

/-- The peaks gate A finds in a trace whose reference time is `tRef`. -/
def gateAPeaks (c : ElementSection) (samples : List Nat) (tRef : Nat) : List Sample :=
  let gate := gateSamples samples tRef c.aStart c.aEnd
  echoPeaks (usedPoints c) c.deadZone gate.length gate

/-- Gate B's answer (R54). -/
def gateB (c : ElementSection) (samples : List Nat) (tRef : Nat) : Option Bool :=
  if hasGateB c then
    some ((gateSamples samples tRef c.bStart c.bEnd).any fun x => c.backWallLevel ≤ x.amp)
  else none

/-- What one trace gives: the shot result and the number of excess echoes (R52, R55). -/
def workTrace (c : ElementSection) (e : Element) (shot : Shot) (trace : List Byte) : ShotResult × Nat :=
  let samples := traceSamples c.window trace
  let i := gateI c samples
  let peaks := gateAPeaks c samples i.tRef
  ({ element := e
     travel := shot.travel
     pos := shot.pos
     found := i.found
     echoes := (peaks.take maxEchoes).map (echoOf c.pathScale)
     backWall := gateB c samples i.tRef },
   (peaks.drop maxEchoes).length)

/-- The traces of a shot worked: one result for each good-fired element, in increasing element number (R39, R40). -/
def State.workShot (s : State) (shot : Shot) (traces : Eight (List Byte)) : List (ShotResult × Nat) :=
  (elements.filter fun e => shot.set.get e && !shot.badFired.get e).map fun e =>
    workTrace (s.elem e) e shot (traces.get e)

end Sys2Proof.Machine
end

