-- ==== Sys2Proof/Machine/Pairing.lean ====
section
/-! DEFINITION. The pairing unit (chapter 7): complementarity and matching, the peer table, the peer notice list and the
own pairing list, the outcome of own indications, and what it does with the frames of peers and with FLUSH. -/

namespace Sys2Proof.Machine

/-! ## Complementary and matching indications (section 7.2) -/

/-- The senses are FORWARD and BACKWARD, in either order, or both NORMAL (R116). -/
def sensesComplement : Sense → Sense → Bool
  | .forward, .backward => true
  | .backward, .forward => true
  | .normal, .normal => true
  | .forward, .forward => false
  | .forward, .normal => false
  | .backward, .backward => false
  | .backward, .normal => false
  | .normal, .forward => false
  | .normal, .backward => false

/-- The depth of an ECHO indication, none for BWL. -/
def Body.depth? : Body → Option Nat
  | .echo depth _ _ _ _ => some depth
  | .bwl _ => none

/-- An own indication and a peer's notice are complementary (R116). -/
def complementary (i : Indication) (n : PeerNotice) : Bool :=
  i.rail == n.rail && i.key == n.key && i.key != 0 && (i.body.depth?.isSome == n.depth.isSome) &&
    sensesComplement i.sense n.sense

/-- The two match: complementary, X within the pair window and, for ECHO, depth within the depth window (R117). -/
def matching (c : StationSection) (i : Indication) (n : PeerNotice) : Bool :=
  complementary i n && distance i.x n.x ≤ c.pairWindow &&
    match i.body.depth?, n.depth with
    | some a, some b => distance a b ≤ c.depthWindow
    | _, _ => true

/-- The best match of a list: smallest distance, the earliest among equals (R117), with its place in the list. -/
def bestMatch {α : Type} (ok : α → Bool) (dist : α → Nat) : List α → Option (Nat × α)
  | [] => none
  | a :: rest =>
    match bestMatch ok dist rest with
    | none => if ok a then some (0, a) else none
    | some (i, b) => if ok a && dist a ≤ dist b then some (0, a) else some (i + 1, b)

/-- The received notice is complementary to some own element of the enable mask (R116, R133). -/
def State.wantsNotice (s : State) (n : PeerNotice) : Bool :=
  elements.any fun e =>
    s.control.enableMask.get e && n.rail == s.control.rail && n.key == (s.elem e).key && n.key != 0 &&
      sensesComplement n.sense (senseOfSine (s.elem e).sine) && (n.depth.isSome || hasGateB (s.elem e))

/-- A peer table entry is a capable partner of own element `e` (R122). -/
def State.capable (s : State) (e : Element) (p : Peer) : Bool :=
  p.live && p.rail == s.control.rail && p.state != .unconfigured &&
    elements.any fun j =>
      let d := p.element.get j
      d.enabled && !d.gapOpen && d.key == (s.elem e).key && d.key != 0 &&
        sensesComplement d.sense (senseOfSine (s.elem e).sine)

/-- The own element has at least one capable partner (R122). -/
def State.hasPartner (s : State) (e : Element) : Bool := s.pair.peers.any (s.capable e)

/-! ## The INDICATION notice (Table 10-4) -/

def pairStateCode : PairState → BitVec 2
  | .first => 0
  | .confirmed _ _ => 1
  | .sole => 2
  | .late _ _ => 3

def PairState.refAddress : PairState → BitVec 4
  | .first => 0
  | .confirmed a _ => a
  | .sole => 0
  | .late a _ => a

def PairState.refSequence : PairState → Nat
  | .first => 0
  | .confirmed _ q => q
  | .sole => 0
  | .late _ q => q

/-- FIRST or SOLE. -/
def listedState (sole : Bool) : PairState := if sole then .sole else .first

/-- The fields of the INDICATION notice of an own indication in a pairing state. -/
def indicationFields (i : Indication) (p : PairState) : IndicationFields :=
  { sequence := BitVec.ofNat 16 i.sequence
    element := BitVec.ofNat 3 i.element.val
    rail := railBit i.rail
    bwl := match i.body with | .echo .. => false | .bwl _ => true
    state := pairStateCode p
    saturated := match i.body with | .echo _ _ _ sat _ => sat | .bwl _ => false
    key := BitVec.ofNat 4 i.key
    sense := senseCode i.sense
    zone := match i.body with | .echo _ z _ _ _ => depthZoneCode z | .bwl _ => 0
    x := positionField i.x
    size := match i.body with | .echo d _ _ _ _ => BitVec.ofNat 16 d | .bwl e => BitVec.ofNat 16 e
    peak := match i.body with | .echo _ _ a _ _ => BitVec.ofNat 8 a | .bwl _ => 0
    length := match i.body with | .echo _ _ _ _ n => BitVec.ofNat 8 n | .bwl _ => 0
    refAddress := p.refAddress
    refSequence := BitVec.ofNat 16 p.refSequence }

/-- The INDICATION notice of an own indication (R129). -/
def State.indicationNotice (s : State) (i : Indication) (p : PairState) : Frame :=
  frameOf Kind.indication s.control.address (indicationPayload (indicationFields i p))

/-! ## Own indications (section 7.5) -/

/-- Entry into the own pairing list: an entry of equal number goes first, a full list evicts its head (R124). -/
def enterOwn (e : OwnEntry) (l : List OwnEntry) : List OwnEntry :=
  let kept := l.filter fun o => o.indication.sequence != e.indication.sequence
  (if kept.length < Config.ownCapacity then kept else kept.tail) ++ [e]

/-- The best match of an own indication in the peer notice list (R127). -/
def State.bestNotice (s : State) (i : Indication) : Option (Nat × PeerNotice) :=
  bestMatch (matching s.station i) (fun n => distance i.x n.x) s.pair.notices

/-- The pairing unit takes an own indication, sets its pairing state and queues its notice (R126 to R129). -/
def State.pairOwn (i : Indication) (s : State) : State :=
  if i.key = 0 then s.append (s.indicationNotice i .sole)
  else
    match s.bestNotice i with
    | some (at_, n) =>
      (s.modPair fun p => { p with notices := p.notices.eraseIdx at_ }).append
        (s.indicationNotice i (.confirmed n.sender n.sequence))
    | none =>
      let sole := !s.hasPartner i.element
      (s.modPair fun p => { p with own := enterOwn ⟨i, sole, s.odo.travel⟩ p.own }).append
        (s.indicationNotice i (listedState sole))

/-! ## Liveness, silence and expiry (R120, R125) -/

/-- A dispatched frame's source address is shown to the pairing unit (R120). -/
def State.shown (src : BitVec 4) (s : State) : State :=
  s.modPair fun p =>
    { p with peers := p.peers.map fun q =>
        if q.address = src then { q with live := true, lastHeard := s.odo.travel } else q }

/-- At a travel advance, LIVE peers not heard for more than the silence distance become SILENT (R120). -/
def silencePeers (travel silence : Nat) (l : List Peer) : List Peer :=
  l.map fun q => if q.live && silence < travel - q.lastHeard then { q with live := false } else q

/-- A travel advance at the pairing unit: silence, and expiry while the run mark is set (R120, R125). -/
def State.pairAdvance (travel : Nat) (s : State) : State :=
  let horizon := 1000000 * s.station.horizon
  let silence := 1000000 * s.station.silence
  s.modPair fun p =>
    let kept := p.notices.filter fun n => !(decide (horizon < travel - n.arrival))
    let silenced := { p with peers := silencePeers travel silence p.peers }
    if p.runMark then
      { silenced with
        notices := kept
        own := p.own.filter fun o => !(decide (horizon < travel - o.travel))
        lost := sat16 (p.lost + (p.notices.length - kept.length)) }
    else silenced

/-! ## Run start and run end (R115) -/

def State.pairRunStart (s : State) : State :=
  s.modPair fun p =>
    { p with runMark := true, notices := [], own := [], peers := p.peers.map fun q => { q with lastHeard := 0 } }

def State.pairRunEnd (s : State) : State := s.modPair fun p => { p with runMark := false, notices := [], own := [] }

/-! ## ANNOUNCE and GAP notices of peers (R118, R119, R121) -/

/-- The elements an ANNOUNCE describes, all gap marks closed; none when an enabled element's sense is undefined
(R177). The sense of a disabled element is never read; where it is announced with the undefined code 3, R177 speaks of
enabled elements alone and Table 7-3 says 'as announced', and the entry holds NORMAL (DESIGN CHOICE, assumption log 23). -/
def announcedElements (f : AnnounceFields) : Option (Eight PeerElement) :=
  let describe := fun e : Element =>
    let d := f.descriptors.get e
    let enabled := f.mask.getLsbD e.val
    (⟨enabled, (d.extractLsb' 2 4).toNat, (senseOf (d.extractLsb' 0 2)).getD .normal, false⟩ : PeerElement)
  if elements.any fun e =>
      f.mask.getLsbD e.val && (senseOf ((f.descriptors.get e).extractLsb' 0 2)).isNone then none
  else some (Eight.ofFn describe)

/-- The new elements of an entry with the gap marks of the old ones (R118). -/
def keepMarks (old new : Eight PeerElement) : Eight PeerElement :=
  Eight.ofFn fun e => { new.get e with gapOpen := (old.get e).gapOpen }

/-- The ANNOUNCE is a new start of the peer whose entry is `q` (R118). -/
def newStart (f : AnnounceFields) (q : Peer) : Bool :=
  f.fresh || f.runNumber != q.runNumber || q.state == .unconfigured || q.state == .ready

/-- A peer's ANNOUNCE worked into its entry (R118), and answered where R119 says so. -/
def State.workAnnounce (src : BitVec 4) (f : AnnounceFields) (state : StationState) (els : Eight PeerElement)
    (s : State) : State :=
  let entry : Peer :=
    { address := src, rail := railOf f.rail, state := state, runNumber := f.runNumber, element := els,
      lastHeard := s.odo.travel, live := true }
  let forget := fun p : Pairing => p.notices.filter fun n => n.sender != src
  match s.pair.peers.find? (fun q => q.address == src) with
  | none =>
    (s.modPair fun p => { p with peers := p.peers ++ [entry], notices := forget p }).queueAnnounce false
  | some q =>
    let s :=
      if newStart f q then
        s.modPair fun p =>
          { p with peers := p.peers.map fun r => if r.address = src then entry else r, notices := forget p }
      else
        s.modPair fun p =>
          { p with peers := p.peers.map fun r =>
              if r.address = src then
                { r with state := state, element := keepMarks r.element els, live := true, lastHeard := s.odo.travel }
              else r }
    if f.fresh then s.queueAnnounce false else s

/-- A received ANNOUNCE: an undefined code is counted UNKNOWN and worked no further (R177). -/
def State.receiveAnnounce (src : BitVec 4) (f : AnnounceFields) (s : State) : State :=
  match stationOf f.state, causeOf f.cause, announcedElements f with
  | some state, some _, some els => s.workAnnounce src f state els
  | _, _, _ => s.count Outcomes.countUnknown

/-- A received GAP notice sets the gap marks of the sender's entry (R121); causes 6 and 7 are undefined (R177). -/
def State.receiveGap (src : BitVec 4) (f : GapFields) (s : State) : State :=
  if 6 ≤ f.cause.toNat then s.count Outcomes.countUnknown
  else
    s.modPair fun p =>
      { p with peers := p.peers.map fun q =>
          if q.address = src then
            { q with element := Eight.ofFn fun e =>
                if f.mask.getLsbD e.val then { q.element.get e with gapOpen := !f.close } else q.element.get e }
          else q }

/-! ## INDICATION notices of peers (section 7.6) -/

/-- A FIRST or SOLE notice as it would be stored, with the own travel as its arrival travel (R133). -/
def peerNotice (src : BitVec 4) (f : IndicationFields) (sense : Sense) (arrival : Nat) : PeerNotice :=
  { sender := src
    sequence := f.sequence.toNat
    element := Fin.ofNat 8 f.element.toNat
    rail := railOf f.rail
    key := f.key.toNat
    sense := sense
    sole := f.state == 2
    x := f.x.toInt
    depth := if f.bwl then none else some f.size.toNat
    arrival := arrival }

/-- The same notice, one of sender and sequence (R123). -/
def sameNotice (a b : PeerNotice) : Bool := a.sender == b.sender && a.sequence == b.sequence

/-- A notice stored in the peer notice list: in place of one of the same sender and sequence, else at the end, with the
head evicted and counted when the list is full (R123). -/
def storeNotice (n : PeerNotice) (p : Pairing) : Pairing :=
  if p.notices.any (sameNotice n) then
    { p with notices := p.notices.map fun m => if sameNotice n m then { n with arrival := m.arrival } else m }
  else if p.notices.length < Config.peerNoticeCapacity then { p with notices := p.notices ++ [n] }
  else { p with notices := p.notices.tail ++ [n], lost := bump p.lost }

/-- A CONFIRMED or LATE notice: the own entry it names and the sender's earlier notice are removed (R131). -/
def State.workPaired (src : BitVec 4) (f : IndicationFields) (s : State) : State :=
  s.modPair fun p =>
    { p with
      own :=
        if f.refAddress = s.control.address then
          p.own.filter fun o => o.indication.sequence != f.refSequence.toNat
        else p.own
      notices := p.notices.filter fun n => !(n.sender == src && n.sequence == f.sequence.toNat) }

/-- The best match of a received notice in the own pairing list (R132). -/
def State.bestOwn (s : State) (n : PeerNotice) : Option (Nat × OwnEntry) :=
  bestMatch (fun o => matching s.station o.indication n) (fun o => distance o.indication.x n.x) s.pair.own

/-- A FIRST or SOLE notice: settled against the own pairing list, or stored (R132, R133). -/
def State.workUnpaired (n : PeerNotice) (s : State) : State :=
  match s.bestOwn n with
  | some (at_, o) =>
    let removed := s.modPair fun p => { p with own := p.own.eraseIdx at_ }
    if n.sender < s.control.address then
      removed.append (s.indicationNotice o.indication (.late n.sender n.sequence))
    else removed
  | none => if s.wantsNotice n then s.modPair (storeNotice n) else s

/-- A received INDICATION notice, worked while the run mark is set (R130); sense 3 is undefined (R177, assumption log
8). -/
def State.receiveIndication (src : BitVec 4) (f : IndicationFields) (s : State) : State :=
  if s.pair.runMark then
    match senseOf f.sense with
    | none => s.count Outcomes.countUnknown
    | some sense =>
      if f.state = 1 ∨ f.state = 3 then s.workPaired src f
      else s.workUnpaired (peerNotice src f sense s.odo.travel)
  else s

/-! ## FLUSH (R134) -/

/-- A FLUSH request: a scope of 3 or more is counted UNKNOWN in every state (R154); in UNCONFIGURED the request is
ignored. -/
def State.receiveFlush (scope : Byte) (peer : BitVec 4) (s : State) : State :=
  if 3 ≤ scope.toNat then s.count Outcomes.countUnknown
  else if s.control.state = .unconfigured then s
  else if scope = 0 then s.modPair fun p => { p with notices := [], own := [] }
  else if scope = 1 then s.modPair fun p => { p with notices := p.notices.filter fun n => n.sender != peer }
  else s.modPair fun p => { p with own := [] }

end Sys2Proof.Machine
end

