-- ==== Sys2Proof/Machine/Judge.lean ====
section
/-! DEFINITION. The indication judge (chapter 5): closed chains and back-wall loss records, depth and position, the
exclusion zones, and numbering. -/

namespace Sys2Proof.Machine

/-! ## Exclusion zones (section 5.6) -/

/-- The entry a ZONE request writes (R91). -/
def zoneEntry (base limit : Int) : Zone :=
  { enabled := decide (base ≤ limit), base := base / 16 * 16, limit := limit / 16 * 16 + 15 }

/-- A ZONE request: an index above 7 is counted UNKNOWN in every state; in UNCONFIGURED the request is ignored (R91,
R154). -/
def State.receiveZone (index : Byte) (base limit : Int) (s : State) : State :=
  if 8 ≤ index.toNat then s.count Outcomes.countUnknown
  else if s.control.state = .unconfigured then s
  else s.modJudge fun j => { j with zones := j.zones.set (Fin.ofNat 8 index.toNat) (zoneEntry base limit) }

/-- The position lies in an enabled entry of the zone table (R92). -/
def Judge.excludes (j : Judge) (x : Int) : Bool :=
  j.zones.toList.any fun z => z.enabled && (decide (z.base ≤ x) && decide (x ≤ z.limit))

/-! ## Numbering (R92, R94, R95) -/

/-- The sequence number after `n`: 1 follows 65535 (R94). -/
def nextSequence (n : Nat) : Nat := if n < 65535 then n + 1 else 1

/-- An indication is suppressed and counted, or takes the next number and goes to the pairing unit (R92, R94, R95). -/
def State.numberIndication (e : Element) (x : Int) (body : Body) (s : State) : State :=
  if s.judge.excludes x then s.modJudge fun j => { j with suppressed := bump j.suppressed }
  else
    let i : Indication :=
      { sequence := s.judge.nextSeq, element := e, rail := s.control.rail, key := (s.elem e).key,
        sense := senseOfSine (s.elem e).sine, x := x, body := body }
    (s.modJudge fun j => { j with nextSeq := nextSequence j.nextSeq }).pairOwn i

/-! ## Closed chains (sections 5.3 and 5.4) -/

/-- depth_µm (R85). -/
def depthMicros (c : ElementSection) (path : Nat) : Int := roundQ14 (path * c.cosine)

/-- along_µm (R85). -/
def alongMicros (c : ElementSection) (path : Nat) : Int := roundQ14 (path * c.sine)

/-- The depth in 0.1 mm (R87). -/
def depthTenths (c : ElementSection) (path : Nat) : Nat := min ((depthMicros c path + 50) / 100).toNat 65535

/-- Both conditions of R84 hold. -/
def chainReported (c : ElementSection) (ch : Chain) : Bool := c.minLength ≤ ch.count && c.reportLevel ≤ ch.peak

/-- The judge works a closed chain (R84 to R88). -/
def State.judgeChain (ch : Chain) (s : State) : State :=
  let c := s.elem ch.element
  if chainReported c ch then
    let depth := depthTenths c ch.peakPath
    s.numberIndication ch.element (carPosition s.station.mountOffset ch.peakPos (alongMicros c ch.peakPath))
      (.echo depth (depthZone s.station depth) ch.peak ch.saturated ch.count)
  else s.modJudge fun j => { j with rejected := bump j.rejected }

/-! ## Back-wall loss records (section 5.5) -/

/-- The extent of a loss record, saturated to 0 to 65535 mm (R89). -/
def lossExtent (startX endX : Int) : Nat := min (endX - startX).toNat 65535

/-- The judge works a closed back-wall loss record (R89, R90). -/
def State.judgeLoss (e : Element) (startX endX : Int) (s : State) : State :=
  let extent := lossExtent startX endX
  if s.station.backWallMin ≤ extent then s.numberIndication e startX (.bwl extent) else s

/-! ## Excess echoes and run start -/

/-- The excess echoes of a shot are added to the judge's counter (R52). -/
def State.addExcess (n : Nat) (s : State) : State := s.modJudge fun j => { j with excess := sat16 (j.excess + n) }

/-- Run start at the judge (R80). -/
def State.judgeRunStart (s : State) : State := s.modJudge fun j => { j with nextSeq := 1 }

end Sys2Proof.Machine
end

