-- ==== Sys2Proof/Machine/Coverage.lean ====
section
/-! DEFINITION. The coverage monitor (chapter 6): coupling, gap causes and GAP notices, gap travel and SPAN notices, and
the back-wall account. -/

namespace Sys2Proof.Machine

/-! ## Gaps (section 6.3) -/

/-- The openings or closings one event causes, one for each element: the cause field's code, the element, the start X
and, for a closing, the end X. -/
structure GapChange where
  close : Bool
  code : BitVec 3
  element : Element
  startX : Int
  endX : Int
deriving DecidableEq, Repr

/-- A GAP notice being formed: the elements combined so far (R105). -/
structure GapGroup where
  close : Bool
  code : BitVec 3
  set : ElementSet
  startX : Int
  endX : Int
deriving DecidableEq, Repr

/-- A change joins the group of its kind, cause and start X, or begins a group of its own (R105). -/
def joinGroup (g : GapChange) : List GapGroup → List GapGroup
  | [] => [⟨g.close, g.code, noElements.set g.element true, g.startX, g.endX⟩]
  | h :: rest =>
    if h.close = g.close ∧ h.code = g.code ∧ h.startX = g.startX then
      { h with set := h.set.set g.element true } :: rest
    else h :: joinGroup g rest

/-- The changes of one event combined; changes come in increasing element order, so the groups stand in the order of the
lowest element each covers (R105). -/
def groupChanges (changes : List GapChange) : List GapGroup := changes.foldl (fun gs g => joinGroup g gs) []

/-- The GAP notice of a group (Table 10-6). The end X of an OPEN is absent and sent as zeros (R176). -/
def State.gapNotice (s : State) (g : GapGroup) : Frame :=
  frameOf Kind.gap s.control.address (gapPayload
    { close := g.close, cause := g.code, mask := maskByte g.set, startX := positionField g.startX,
      endX := if g.close then positionField g.endX else 0 })

/-- The GAP notices of one event are queued (R105). -/
def State.queueGaps (changes : List GapChange) (s : State) : State :=
  s.appendAll ((groupChanges changes).map s.gapNotice)

/-- One element's account changed. -/
def State.modElementCover (e : Element) (f : ElementCover → ElementCover) (s : State) : State :=
  s.modCover fun c => { c with element := c.element.set e (f (c.element.get e)) }

/-- A request on one element's cause set: to put a cause in or take it out, with the start X an opening would take and
the end X a closing would take. -/
structure CauseRequest where
  element : Element
  cause : Cause
  add : Bool
  startX : Int
  endX : Int
deriving DecidableEq, Repr

/-- The element's account after a request (R102, R103, R104): the gap start X is set when the set goes from empty to
non-empty and becomes absent when it goes from non-empty to empty. -/
def applyRequest (q : CauseRequest) (c : ElementCover) : ElementCover :=
  let causes := c.causes.put q.cause q.add
  { c with
    causes := causes
    gapStart :=
      if causes.nonempty then if c.causes.nonempty then c.gapStart else some q.startX
      else if c.causes.nonempty then none else c.gapStart }

/-- The opening or closing a request causes, if it causes one (R103, R104). -/
def requestChange (q : CauseRequest) (c : ElementCover) : Option GapChange :=
  let causes := c.causes.put q.cause q.add
  if causes.nonempty && !c.causes.nonempty then
    some ⟨false, gapCauseCode q.cause, q.element, q.startX, q.endX⟩
  else if !causes.nonempty && c.causes.nonempty then
    some ⟨true, gapCauseCode q.cause, q.element, c.gapStart.getD q.endX, q.endX⟩
  else none

/-- The cause sets and gap starts after the requests (R102 to R104). -/
def State.applyRequests (qs : List CauseRequest) (s : State) : State :=
  qs.foldl (fun t q => t.modElementCover q.element (applyRequest q)) s

/-- The GAP notices the requests cause, by the causes as they stand before them (R103 to R105). -/
def State.requestGroups (qs : List CauseRequest) (s : State) : List GapGroup :=
  groupChanges (qs.filterMap fun q => requestChange q (s.cover.element.get q.element))

/-- The acts of the requests of one event, at most one for each element and in increasing element order, in ACTIVE
accounting: the cause sets change, then each notice is queued. In IDLE they change nothing (R97, R102, R105). -/
def State.causeActs (qs : List CauseRequest) (s : State) : List (State → State) :=
  if s.cover.accounting = .active then
    State.applyRequests qs :: (s.requestGroups qs).map fun g t => t.append (t.gapNotice g)
  else []

/-- The requests of one event, worked together. -/
def State.requestCauses (qs : List CauseRequest) (s : State) : State := (s.causeActs qs).foldl (fun t act => act t) s

/-- The elements of a mask ask for one cause, at the current car position (R111, R112). -/
def State.requestForAll (m : ElementSet) (cause : Cause) (add : Bool) (s : State) : State :=
  s.requestCauses (m.members.map fun e => ⟨e, cause, add, s.currentX, s.currentX⟩)

/-! ## Coupling (section 6.2) -/

/-- U in µm. -/
def State.couplingLimit (s : State) : Nat := 1000 * s.station.couplingRun

/-- A shot of a COUPLED element (R99). -/
def State.coupledShot (r : ShotResult) (s : State) : State :=
  let c := s.cover.element.get r.element
  if r.found then s.modElementCover r.element fun c => { c with run := none }
  else
    match c.run with
    | none => s.modElementCover r.element fun c => { c with run := some ⟨r.travel, s.shotX r.pos⟩ }
    | some run =>
      if s.couplingLimit ≤ r.travel - run.travel then
        -- becoming UNCOUPLED discards an open loss record (R110)
        (s.modElementCover r.element fun c =>
            { c with coupling := .uncoupled, run := none, backWall := .present }).requestCauses
          [⟨r.element, .uncoupled, true, run.x, run.x⟩]
      else s

/-- A shot of an UNCOUPLED element (R100). -/
def State.uncoupledShot (r : ShotResult) (s : State) : State :=
  let c := s.cover.element.get r.element
  if r.found then
    match c.run with
    | none => s.modElementCover r.element fun c => { c with run := some ⟨r.travel, s.shotX r.pos⟩ }
    | some run =>
      if s.couplingLimit ≤ r.travel - run.travel then
        (s.modElementCover r.element fun c => { c with coupling := .coupled, run := none }).requestCauses
          [⟨r.element, .uncoupled, false, run.x, run.x⟩]
      else s
  else s.modElementCover r.element fun c => { c with run := none }

/-- The coupling step of a shot result (R99, R100). -/
def State.coupleShot (r : ShotResult) (s : State) : State :=
  match (s.cover.element.get r.element).coupling with
  | .coupled => s.coupledShot r
  | .uncoupled => s.uncoupledShot r

/-! ## Back-wall (section 6.6) -/

/-- The back-wall finding of a shot result, worked after its coupling (R108, R109). DESIGN CHOICE (assumption log 21): of
a bad shot that found the back-wall, R109 first says that it closes an open loss record whether or not the shot found the
interface, and later that a bad shot leaves a record open; the record is closed. -/
def State.backWallShot (r : ShotResult) (s : State) : State :=
  let c := s.cover.element.get r.element
  match r.backWall, c.backWall with
  | some false, .present =>
    if r.found && c.coupling == .coupled then
      s.modElementCover r.element fun c => { c with backWall := .lost (s.shotX r.pos) }
    else s
  | some true, .lost startX =>
    (s.modElementCover r.element fun c => { c with backWall := .present }).judgeLoss r.element startX (s.shotX r.pos)
  | some false, .lost _ => s
  | some true, .present => s
  | none, _ => s

/-- The coupling of one shot result at the monitor, while accounting is ACTIVE (R97, R99, R100). -/
def State.coverCoupling (r : ShotResult) (s : State) : State :=
  if s.cover.accounting = .active then s.coupleShot r else s

/-- The back-wall finding of one shot result at the monitor, while accounting is ACTIVE (R97, R108). -/
def State.coverBackWall (r : ShotResult) (s : State) : State :=
  if s.cover.accounting = .active then s.backWallShot r else s

/-- One shot result at the monitor: its coupling, then its back-wall finding (R108). -/
def State.coverResult (r : ShotResult) (s : State) : State := (s.coverCoupling r).coverBackWall r

/-- The results of a shot at the monitor, one after another in increasing element number (R39), each in two acts. -/
def coverResults (results : List ShotResult) : List Act :=
  results.flatMap fun r => [(.loose, State.coverCoupling r), (.loose, State.coverBackWall r)]

/-! ## Gap travel and spans (section 6.5) -/

/-- The span length in µm. -/
def State.spanMicros (s : State) : Nat := 1000000 * s.station.spanLength

/-- The tested percentage over a stretch, 0 for an element outside the run's mask (R107, R113). -/
def testedPercent (length gapTravel : Nat) : Nat := (length - gapTravel) * 100 / length

/-- The index the next SPAN notice carries (R107). -/
def Coverage.reportedIndex (c : Coverage) : Nat := sat16 (c.spanIndex + 1)

/-- The SPAN notice of a stretch of the given length (Table 10-7). -/
def State.spanNotice (s : State) (length : Nat) : Frame :=
  frameOf Kind.span s.control.address (spanPayload
    { index := BitVec.ofNat 16 s.cover.reportedIndex
      endX := positionField s.currentX
      tested := Eight.ofFn fun e =>
        if s.cover.runMask.get e then BitVec.ofNat 8 (testedPercent length (s.cover.element.get e).gapTravel) else 0 })

/-- Travel counted as gap travel for the elements whose cause set is non-empty (R106). -/
def Coverage.countGapTravel (d : Nat) (c : Coverage) : Coverage :=
  { c with element := c.element.map fun e => if e.causes.nonempty then { e with gapTravel := e.gapTravel + d } else e }

/-- Every gap travel at the start of a span: `d` for elements whose set is non-empty, 0 for the others (R107). -/
def Coverage.restartGapTravel (d : Nat) (c : Coverage) : Coverage :=
  { c with element := c.element.map fun e => { e with gapTravel := if e.causes.nonempty then d else 0 } }

/-- A travel advance at the monitor in ACTIVE accounting (R106, R107). -/
def State.coverAdvance (travel : Nat) (s : State) : State :=
  if s.cover.accounting = .active then
    let spanEnd := s.cover.spanStart + s.spanMicros
    if spanEnd ≤ travel then
      let counted := s.modCover fun c => { c.countGapTravel (spanEnd - c.lastTravel) with lastTravel := travel }
      let reported := counted.append (counted.spanNotice s.spanMicros)
      reported.modCover fun c =>
        { c.restartGapTravel (travel - spanEnd) with spanIndex := c.reportedIndex, spanStart := spanEnd }
    else s.modCover fun c => { c.countGapTravel (travel - c.lastTravel) with lastTravel := travel }
  else s

/-! ## Lift, disable, halt, run start and run end (section 6.7) -/

/-- Every element's run abandoned and open loss record discarded (R101, R110). -/
def Coverage.abandonAll (c : Coverage) : Coverage :=
  { c with element := c.element.map fun e => { e with run := none, backWall := .present } }

/-- Entry to LIFTED at the monitor (R111). -/
def State.coverLifted (s : State) : State :=
  if s.cover.accounting = .active then
    (s.modCover Coverage.abandonAll).requestForAll s.control.enableMask .lifted true
  else s

/-- Entry to RUNNING from LIFTED at the monitor (R111). -/
def State.coverLowered (s : State) : State :=
  s.requestForAll (Eight.ofFn fun e => (s.cover.element.get e).causes.lifted) .lifted false

/-- The removal of an element from the enable mask at the monitor (R101, R110, R170). -/
def State.coverDisable (e : Element) (s : State) : State :=
  if s.cover.accounting = .active then
    (s.modElementCover e fun c => { c with run := none, backWall := .present }).requestCauses
      [⟨e, .pulser, true, s.currentX, s.currentX⟩]
  else s

/-- A halt at the monitor (R112). -/
def State.coverHalt (s : State) : State :=
  if s.cover.accounting = .active then
    (s.modCover Coverage.abandonAll).requestForAll s.control.enableMask .halted true
  else s

/-- Run start at the monitor (R98). -/
def State.coverRunStart (s : State) : State :=
  s.modCover fun _ =>
    { accounting := .active, element := Eight.all ElementCover.fresh, spanIndex := 0, spanStart := 0, lastTravel := 0,
      runMask := s.control.enableMask }

/-- Every open loss record closed at the current car position and handed to the judge, in increasing element number
(R113). -/
def State.closeLosses (s : State) : State :=
  elements.foldl (fun t e =>
    match (t.cover.element.get e).backWall with
    | .lost startX =>
      (t.modElementCover e fun c => { c with backWall := .present }).judgeLoss e startX t.currentX
    | .present => t) s

/-- The closings of a STOP's run end, cause RUN_END (R105, R113). -/
def State.runEndChanges (s : State) : List GapChange :=
  elements.filterMap fun e =>
    let c := s.cover.element.get e
    if c.causes.nonempty then
      some ⟨true, runEndCode, e, c.gapStart.getD s.currentX, s.currentX⟩
    else none

/-- Every cause set emptied and every open gap closed with RUN_END (R113). -/
def State.closeGaps (s : State) : State :=
  (s.modCover fun c =>
    { c with element := c.element.map fun e =>
        if e.causes.nonempty then { e with causes := Causes.empty, gapStart := none } else e }).queueGaps s.runEndChanges

/-- The partial span of a STOP's run end (R113). DESIGN CHOICE (assumption log 22): of a STOP from a halt taken inside the
current span, the rule's formula gives each element its share of the span before the halt, and the rule's last sentence 0
percent; the formula is followed. -/
def State.reportPartialSpan (s : State) : State :=
  let covered := s.cover.lastTravel - s.cover.spanStart
  if 0 < covered then s.append (s.spanNotice covered) else s

/-- The run end of a STOP at the monitor; accounting then becomes IDLE (R98, R113). -/
def State.coverRunEnd (s : State) : State :=
  (s.closeLosses.closeGaps.reportPartialSpan).modCover fun c => { c with accounting := .idle }

end Sys2Proof.Machine
end

