-- ==== Sys2Proof/Machine/Tracker.lean ====
section
/-! DEFINITION. The chain tracker (chapter 4): prediction, assignment of a shot's echoes to chains, and the closing and
discarding of chains. -/

namespace Sys2Proof.Machine

/-! ## Closing (R68 to R73) -/

/-- Chains leave the table and are handed to the judge one after another, in creation order; station control is told of
each entry freed (R68, R70). -/
def State.closeChains (pick : Chain → Bool) (s : State) : State :=
  let gone := s.tracker.chains.filter pick
  let freed := s.modTracker fun t => { t with chains := t.chains.filter fun c => !pick c }
  gone.foldl (fun t c => (t.markChainFull false).judgeChain c) freed

/-- The oldest of the chains `pick` picks leaves the table and is handed to the judge; nothing when there is none. The
tracker's closings at one event are taken one by one where another block's acts may come between them (R70, R82). -/
def State.closeNext (pick : Chain → Bool) (s : State) : State :=
  match s.tracker.chains.find? pick with
  | some c => ((s.modTracker fun t => { t with chains := t.chains.eraseP pick }).markChainFull false).judgeChain c
  | none => s

/-- G_e in µm. -/
def State.gapLimit (s : State) (e : Element) : Nat := 1000 * (s.elem e).chainGap

/-- The chain's gap at a travel exceeds G_e (R69). -/
def State.gapExceeded (s : State) (travel : Nat) (c : Chain) : Bool := s.gapLimit c.element < travel - c.lastTravel

/-- The element is in the in-flight set. -/
def Tracker.flying (t : Tracker) (e : Element) : Bool := (t.inFlight.map fun m => m.get e).getD false

/-- One closing of a travel advance: a reversal closes every chain, any other advance the non-exempt chains whose gap is
exceeded (R69, R71). -/
def State.closeAtAdvance (travel : Nat) (reversal : Bool) (s : State) : State :=
  s.closeNext fun c => reversal || (!s.tracker.flying c.element && s.gapExceeded travel c)

/-- A travel advance at the tracker, closing by closing (R69, R71). -/
def State.trackAdvance (travel : Nat) (reversal : Bool) (s : State) : List Act :=
  List.replicate s.tracker.chains.length (.tracker .advance, State.closeAtAdvance travel reversal)

/-- One closing of the chains of a set of elements past their gap at a travel (R60, R61). -/
def State.closeOverdue (set : ElementSet) (travel : Nat) (s : State) : State :=
  s.closeNext fun c => set.get c.element && s.gapExceeded travel c

/-- The in-flight set changes (R60, R61). -/
def State.setInFlight (set : Option ElementSet) (s : State) : State := s.modTracker fun t => { t with inFlight := set }

/-- A fire at the tracker: the fired elements' chains past their gap close, closing by closing, and the elements become
the in-flight set (R60). -/
def State.trackFire (set : ElementSet) (travel : Nat) (s : State) : List Act :=
  List.replicate s.tracker.chains.length (.tracker .fire, State.closeOverdue set travel) ++
    [(.tracker .fire, State.setInFlight (some set))]

/-- Every open chain of a disabled element closes, closing by closing (R72). -/
def State.trackDisable (e : Element) (s : State) : List Act :=
  List.replicate s.tracker.chains.length (.tracker (.disable e), State.closeNext fun c => c.element == e)

/-- A STOP's run end closes every open chain (R73). -/
def State.trackRunEnd (s : State) : State := s.closeChains fun _ => true

/-- A halt discards every chain and counts them (R74). -/
def State.trackHalt (s : State) : State :=
  let n := s.tracker.chains.length
  let t := s.modTracker fun t => { t with chains := [], inFlight := none, discarded := sat16 (t.discarded + n) }
  if n = 0 then t else t.markChainFull false

/-- Run start at the tracker: the table, already empty in every reachable case, is emptied, which ends a CHAIN_FULL
episode (R59). -/
def State.trackRunStart (s : State) : State :=
  (s.modTracker fun t => { t with chains := [], nextNumber := 1, inFlight := none }).markChainFull false

/-! ## Prediction (R62) -/

/-- The position change Δx in µm from one fine position to another. -/
def positionChange (to_ from_ : FinePos) : Int := 1000 * (to_.mm - from_.mm) + ((to_.um : Int) - from_.um)

/-- The predicted path of a chain in a shot latched at `pos`, for an element of sine `sine` (R62). -/
def predictedPath (sine : Int) (pos : FinePos) (c : Chain) : Int :=
  c.lastPath - roundQ14 (positionChange pos c.lastPos * sine)

/-! ## Assignment (R63 to R67) -/

/-- A chain that may still take an echo of the shot: its number and its prediction. -/
structure Open where
  number : Nat
  predicted : Int
deriving DecidableEq, Repr

/-- The chains of the result's element with their predictions, formed before the first echo is taken, oldest first
(R62). -/
def State.openFor (s : State) (r : ShotResult) : List Open :=
  (s.tracker.chains.filter fun c => c.element == r.element).map fun c =>
    ⟨c.number, predictedPath (s.elem r.element).sine r.pos c⟩

/-- A chain that takes an echo (R65). -/
def takeEcho (r : ShotResult) (x : Echo) (c : Chain) : Chain :=
  let higher := decide (c.peak < x.amp)
  { c with
    lastTravel := r.travel
    lastPos := r.pos
    lastPath := x.path
    count := min (c.count + 1) 255
    peak := if higher then x.amp else c.peak
    peakPath := if higher then x.path else c.peakPath
    peakPos := if higher then r.pos else c.peakPos
    saturated := c.saturated || x.saturated }

/-- The chain an echo starts (R66). -/
def newChain (number : Nat) (r : ShotResult) (x : Echo) : Chain :=
  { element := r.element, number := number, lastTravel := r.travel, lastPos := r.pos, lastPath := x.path, count := 1,
    peak := x.amp, peakPath := x.path, peakPos := r.pos, saturated := x.saturated }

/-- An echo no chain takes: it starts a chain, or is dropped, counted and reported when the table is full (R66, R67). -/
def State.startChain (r : ShotResult) (x : Echo) (s : State) : State :=
  if s.tracker.chains.length < Config.chainCapacity then
    s.modTracker fun t =>
      { t with chains := t.chains ++ [newChain t.nextNumber r x], nextNumber := t.nextNumber + 1 }
  else (s.modTracker fun t => { t with dropped := bump t.dropped }).reportChainFull r.element

/-- One echo dealt with: the nearest unclaimed candidate, the oldest among equals, takes it and is claimed (R64). -/
def State.assignEcho (r : ShotResult) (x : Echo) (unclaimed : List Open) (s : State) : List Open × State :=
  match bestMatch (fun o : Open => distance x.path o.predicted ≤ (s.elem r.element).chainWindow)
      (fun o => distance x.path o.predicted) unclaimed with
  | some (i, o) =>
    (unclaimed.eraseIdx i,
     s.modTracker fun t =>
       { t with chains := t.chains.map fun c => if c.number = o.number then takeEcho r x c else c })
  | none => (unclaimed, s.startChain r x)

/-- One shot result worked, its echoes in increasing relative time (R63). -/
def State.assignResult (r : ShotResult) (s : State) : State :=
  (r.echoes.foldl (fun (acc : List Open × State) x => acc.2.assignEcho r x acc.1) (s.openFor r, s)).2

/-- The listening end at the tracker: the results are worked one after another, the in-flight set is cleared, and the
chains of the shot's elements past their gap close, closing by closing (R61). An echo starts at most one chain, so as many
closings as there are chains and echoes leave none unclosed. -/
def State.trackListeningEnd (set : ElementSet) (results : List ShotResult) (s : State) : List Act :=
  results.map (fun r => (.loose, fun t => t.assignResult r)) ++ [(.loose, State.setInFlight none)] ++
    List.replicate (s.tracker.chains.length + (results.map fun r => r.echoes.length).sum)
      (.loose, State.closeOverdue set s.odo.travel)

end Sys2Proof.Machine
end

