-- ==== Sys2Proof/Machine/Scheduler.lean ====
section
/-! DEFINITION. The shot scheduler and the pulser bank (chapter 2): due elements, shot forming, the fire with its
next-due update, undersampling requests and bad-fire check, and what each change of station state does to them. -/

namespace Sys2Proof.Machine

/-! ## High voltage (R28) -/

/-- A request to switch the high voltage on: nothing in SETTLING or READY (R28). -/
def HighVoltage.switchOn : HighVoltage → HighVoltage
  | .off => .settling 0
  | .settling t => .settling t
  | .ready => .ready

/-- The high voltage is switched off from any state (R28). -/
def State.hvOff (s : State) : State := s.modPulser fun p => { p with hv := .off }

/-- The scheduler's state set. -/
def State.setSched (st : SchedState) (s : State) : State := s.modSched fun c => { c with state := st }

/-- The scheduler goes OFF and asks for the high voltage off. -/
def State.schedOffHvOff (s : State) : State := (s.setSched .off).hvOff

/-! ## Due elements and shot forming (R20, R21) -/

/-- N_e. -/
def State.nextDue (s : State) (e : Element) : Nat := (s.sched.element.get e).nextDue

/-- An enabled element is due when travel has reached its N_e (R20). -/
def State.due (s : State) (e : Element) : Bool := s.control.enableMask.get e && s.nextDue e ≤ s.odo.travel

/-- An element put before those of larger N_e, after those of smaller N_e and before those of equal N_e. -/
def insertDue (n : Element → Nat) (e : Element) : List Element → List Element
  | [] => [e]
  | f :: rest => if n e ≤ n f then e :: f :: rest else f :: insertDue n e rest

/-- The due elements by N_e, smallest first, and by element number among equals (R21 step 1). -/
def State.dueOrder (s : State) : List Element := (elements.filter s.due).foldr (insertDue s.nextDue) []

/-- The elements taken into a shot, in the order taken (R21 steps 2 to 4). -/
def takeShot (c : StationSection) (order : List Element) : List Element :=
  order.foldl (fun taken e =>
    if taken.isEmpty || (taken.length < c.perShotLimit && taken.all fun f => compatible c e f) then taken ++ [e]
    else taken) []

/-! ## The fire (R22 to R24, R35, R36) -/

/-- A pulse of the given peak drive current is a good fire (R35). -/
def goodFire (peak : Nat) : Bool := Config.peakMin ≤ peak && peak ≤ Config.peakMax

/-- The listening window of a shot: the longest window of its elements, in ticks (R22). -/
def State.listenTicks (s : State) (taken : List Element) : Nat :=
  taken.foldl (fun m e => max m (s.elem e).window) 0

/-- The next-due update of an element that fires at travel `t` with pitch `d` (R23), with the undersampled mark set or
cleared as its request does (R24). DESIGN CHOICE (assumption log 25): the skip count saturates at 255, as R23 and Table
2-2 say, where R176 would keep a counter that STATUS carries in one byte at 16 bits; the byte sent is the same. -/
def fireElement (t d : Nat) (e : ElementSched) : ElementSched :=
  let lag := t - e.nextDue
  if lag < d then
    { e with
      nextDue := e.nextDue + d
      onGrid := min (e.onGrid + 1) 8
      undersampled := e.undersampled && e.onGrid + 1 != 8 }
  else
    { nextDue := e.nextDue + (lag / d + 1) * d, skipCount := min (e.skipCount + lag / d) 255, onGrid := 0,
      undersampled := true }

/-- The request a fire makes for an element: to add UNDERSAMPLED when the mark was set, to remove it when it was cleared
(R24). -/
def State.fireRequest (s : State) (t : Nat) (e : Element) : Option CauseRequest :=
  let before := s.sched.element.get e
  let after := fireElement t (s.elem e).pitch before
  if before.undersampled == after.undersampled then none
  else some ⟨e, .undersampled, after.undersampled, s.currentX, s.currentX⟩

/-- The bad-fire counts after a fire: 0 for a good fire, one more for a bad one (R35). -/
def Pulser.countFires (fired : ElementSet) (peaks : Eight Nat) (p : Pulser) : Pulser :=
  { p with badFires := Eight.ofFn fun e =>
      if fired.get e then if goodFire (peaks.get e) then 0 else min (p.badFires.get e + 1) 3 else p.badFires.get e }

/-- The elements whose bad-fire count this fire brings to 3 (R36). -/
def State.thirdBadFires (s : State) (fired : ElementSet) (peaks : Eight Nat) : List Element :=
  elements.filter fun e => fired.get e && !goodFire (peaks.get e) && s.pulser.badFires.get e == 2

/-- The element leaves the enable mask (R36, R170). -/
def State.unmask (e : Element) (s : State) : State :=
  s.modControl fun c => { c with enableMask := c.enableMask.set e false }

/-- Station control acts on a third bad fire: mask, chains, fault record and notice, gap cause, in this order (R36,
R170). -/
def State.disableActs (e : Element) (s : State) : List Act :=
  (.loose, State.unmask e) :: (s.trackDisable e ++
    [(.loose, State.reportFault .pulser (BitVec.ofNat 4 e.val)), (.monitor (.disable e), State.coverDisable e)])

/-- The acts of a third bad fire, one after another. -/
def State.disableElement (e : Element) (s : State) : State := (s.disableActs e).foldl (fun t act => act.2 t) s

/-- The scheduler and the pulser bank at a fire: LISTENING with the shot in flight, next-due updates and bad-fire counts
(R22, R23, R35). -/
def State.latchShot (taken : List Element) (peaks : Eight Nat) (s : State) : State :=
  let set := setOf taken
  let t := s.odo.travel
  let shot : Shot :=
    { set := set, listenLeft := s.listenTicks taken, travel := t, pos := s.odo.pos,
      badFired := Eight.ofFn fun e => set.get e && !goodFire (peaks.get e) }
  (s.modSched fun c =>
    { state := .listening shot
      element := Eight.ofFn fun e =>
        if set.get e then fireElement t (s.elem e).pitch (c.element.get e) else c.element.get e }).modPulser
    (Pulser.countFires set peaks)

/-- What a fire brings the other blocks, by the state before it: the chain tracker is told of it (R60), and, in a lane of
their own, the requests of R24 come before the reports of R36, the lower element's first. The tracker is told of a disable
before or after it is told of the fire (R72), and the monitor takes the requests whole before its travel advance or after it
(R102). -/
def State.fireLanes (taken : List Element) (peaks : Eight Nat) (s : State) : List (List Act) :=
  let set := setOf taken
  let requests := (elements.filter fun e => set.get e).filterMap fun e => s.fireRequest s.odo.travel e
  [s.trackFire set s.odo.travel,
   (s.causeActs requests).map (fun act => (.monitor .fire, act)) ++
     (s.thirdBadFires set peaks).flatMap fun e => s.disableActs e]

/-- A shot fires (R22): the scheduler latches it, and the other blocks take it in a free order. -/
def State.fire (ord : Nat → Nat → Nat) (taken : List Element) (peaks : Eight Nat) (s : State) : State :=
  (s.latchShot taken peaks).inFreeOrder ord (s.fireLanes taken peaks)

/-- The shot a forming attempt forms, no element when it forms none: a FREE scheduler, a RUNNING station and a READY high
voltage (R20) take it from the due elements (R21). -/
def State.formed (s : State) : List Element :=
  if s.sched.state = .free ∧ s.control.state = .running ∧ s.pulser.hv = .ready then takeShot s.station s.dueOrder
  else []

/-- A forming attempt: the shot formed, if there is one, fires (R20, R21). -/
def State.attempt (ord : Nat → Nat → Nat) (peaks : Eight Nat) (s : State) : State :=
  if s.formed.isEmpty then s else s.fire ord s.formed peaks

/-! ## Station states and the scheduler (section 2.6) -/

/-- Entry to RUNNING at the scheduler, before the forming attempt of a scheduler that becomes FREE (R30). -/
def State.schedRunning (s : State) : State :=
  match s.sched.state with
  | .off =>
    let on := s.modPulser fun p => { p with hv := p.hv.switchOn }
    if s.pulser.hv = .ready then on.setSched .free else on.setSched .settling
  | .settling => s
  | .free => s
  | .listening _ => s
  | .recovering _ => s

/-- Entry to LIFTED at the scheduler (R31). -/
def State.schedLifted (s : State) : State :=
  match s.sched.state with
  | .free => s.setSched .off
  | .settling => s.setSched .off
  | .off => s
  | .listening _ => s
  | .recovering _ => s

/-- Entry to STILL at the scheduler (R32). -/
def State.schedStill (s : State) : State :=
  match s.sched.state with
  | .free => s.schedOffHvOff
  | .settling => s.schedOffHvOff
  | .off => s.schedOffHvOff
  | .listening _ => s
  | .recovering _ => s

/-- Entry to READY by a STOP at the scheduler (R33). -/
def State.schedStop (s : State) : State :=
  match s.sched.state with
  | .listening _ => s
  | .off => s.schedOffHvOff
  | .settling => s.schedOffHvOff
  | .free => s.schedOffHvOff
  | .recovering _ => s.schedOffHvOff

/-- Entry to HALTED at the scheduler: OFF at once, any shot abandoned (R34). -/
def State.schedHalt (s : State) : State := s.schedOffHvOff

/-- Run start at the scheduler and the pulser bank (R19). -/
def State.schedRunStart (s : State) : State :=
  (s.modSched fun c =>
    { c with element := Eight.ofFn fun e =>
        { nextDue := if s.control.enableMask.get e then (s.elem e).phase else (c.element.get e).nextDue
          skipCount := 0, onGrid := 0, undersampled := false } }).modPulser fun p => { p with badFires := Eight.all 0 }

end Sys2Proof.Machine
end

