-- ==== Sys2Proof/Machine/Control.lean ====
section
/-! DEFINITION. Station control (chapter 9): the changes of station state, the run start, the run end and the halt, and
the requests RUN, STOP, HALT, CLEAR and QUERY as station control works them. -/

namespace Sys2Proof.Machine

/-- The station state set. -/
def State.setStation (st : StationState) (s : State) : State := s.modControl fun c => { c with state := st }

/-! ## Changes of station state (R165, R166) -/

/-- Entry to STILL (R32, R166): the scheduler, then STATUS page 0 (R165). -/
def State.enterStill (s : State) : State := ((s.setStation .still).schedStill).queueStatus 0

/-- Entry to LIFTED (R31, R111): the scheduler and the coverage monitor, then STATUS page 0 (R165). -/
def State.enterLifted (s : State) : State :=
  let marked := s.modControl fun c =>
    { c with state := .lifted, liftFromStill := c.state == .still }
  ((marked.schedLifted).coverLifted).queueStatus 0

/-- Entry to RUNNING from STILL on the first edge after stillness, at the station and at the scheduler (R30). Its STATUS
page 0 and the forming attempt of a scheduler that becomes FREE belong to the travel advance of that edge. -/
def State.leaveStill (s : State) : State := (s.setStation .running).schedRunning

/-- Entry to RUNNING from LIFTED on the recognition of LOWERED (R30, R111): LIFTED is removed, then firing resumes
(remark after R30), then STATUS page 0 (R165). -/
def State.leaveLifted (ord : Nat → Nat → Nat) (peaks : Eight Nat) (s : State) : State :=
  let entered := s.modControl fun c => { c with state := .running, liftFromStill := false }
  (((entered.coverLowered).schedRunning).attempt ord peaks).queueStatus 0

/-- A stillness declaration at station control (R166). -/
def State.tellStill (s : State) : State :=
  match s.control.state with
  | .running => s.enterStill
  | .starting => s
  | .unconfigured => s
  | .ready => s
  | .lifted => s
  | .still => s
  | .halted => s

/-- A recognised lift state told to station control (R166). -/
def State.tellLift (ord : Nat → Nat → Nat) (peaks : Eight Nat) (lift : LiftState) (s : State) : State :=
  match lift, s.control.state with
  | .raised, .running => s.enterLifted
  | .raised, .still => s.enterLifted
  | .lowered, .lifted => s.leaveLifted ord peaks
  | .raised, .starting => s
  | .raised, .unconfigured => s
  | .raised, .ready => s
  | .raised, .lifted => s
  | .raised, .halted => s
  | .lowered, .starting => s
  | .lowered, .unconfigured => s
  | .lowered, .ready => s
  | .lowered, .running => s
  | .lowered, .still => s
  | .lowered, .halted => s

/-- A first edge after stillness told to station control (R166). -/
def State.tellFirstEdge (s : State) : State :=
  match s.control.state with
  | .still => s.leaveStill
  | .starting => s
  | .unconfigured => s
  | .ready => s
  | .running => s
  | .lifted => s
  | .halted => s

/-! ## Run start (R167) -/

/-- The odometer at run start (R16). -/
def Odometer.runStart (start : Int) (o : Odometer) : Odometer :=
  { o with pos := ⟨start, 0⟩, travel := 0, direction := .forward, extreme := ⟨start, 0⟩, sinceEdge := 0,
           stillMark := false }

/-- The blocks told of the run start, in the order of R167. -/
def State.applyRunStart (runNumber : BitVec 16) (start : Int) (s : State) : State :=
  let numbered := s.modControl fun c => { c with runNumber := runNumber, runEndPending := false }
  let masked := (numbered.modOdo (Odometer.runStart start)).modControl fun c => { c with enableMask := c.configuredMask }
  masked.schedRunStart.trackRunStart.judgeRunStart.coverRunStart.pairRunStart

/-- A RUN accepted in READY or HALTED: run start, RUNNING with its notices, and LIFTED at once when the recognised lift
state is RAISED (R167). The high voltage is OFF at every run start (R19), so no shot can be formed here. -/
def State.acceptRun (runNumber : BitVec 16) (start : Int) (s : State) : State :=
  let running :=
    ((((s.applyRunStart runNumber start).setStation .running).queueAnnounce false).queueStatus 0).schedRunning
  match running.odo.lift with
  | .raised => running.enterLifted
  | .lowered => running

/-- A RUN request at station control (R167). -/
def State.workRun (runNumber : BitVec 16) (start : BitVec 32) (s : State) : State :=
  if runNumber = 0 then s.count Outcomes.countUnknown
  else
    match s.control.state with
    | .ready => s.acceptRun runNumber start.toInt
    | .halted => s.acceptRun runNumber start.toInt
    | .starting => s
    | .unconfigured => s.queueStatus 0
    | .running => s.queueStatus 0
    | .lifted => s.queueStatus 0
    | .still => s.queueStatus 0

/-! ## STOP and the run end (R168) -/

/-- Entry to READY by a STOP, with the run end pending (R168). -/
def State.acceptStop (s : State) : State :=
  let marked := s.modControl fun c => { c with state := .ready, runEndPending := true, liftFromStill := false }
  (marked.schedStop).queueStatus 0

/-- A STOP request at station control (R168). -/
def State.workStop (s : State) : State :=
  match s.control.state with
  | .running => s.acceptStop
  | .lifted => s.acceptStop
  | .still => s.acceptStop
  | .halted => s.acceptStop
  | .starting => s
  | .unconfigured => s
  | .ready => s

/-- The run end effects of a STOP, once the scheduler has reported OFF (R113, R168). -/
def State.applyRunEnd (s : State) : State :=
  (s.trackRunEnd.coverRunEnd.pairRunEnd).modControl fun c => { c with runEndPending := false }

/-- The run end is due: it is pending and the scheduler is OFF (R168). -/
def State.runEndDue (s : State) : Bool := s.control.runEndPending && s.sched.state == .off

/-! ## HALT (R169) -/

/-- The halt effects, in the order of R169, then STATUS page 0. -/
def State.acceptHalt (s : State) : State :=
  let marked := s.modControl fun c => { c with state := .halted, liftFromStill := false }
  (marked.schedHalt.trackHalt.coverHalt).queueStatus 0

/-- A HALT request or a halt symbol at station control (R169). -/
def State.workHalt (s : State) : State :=
  match s.control.state with
  | .running => s.acceptHalt
  | .lifted => s.acceptHalt
  | .still => s.acceptHalt
  | .starting => s
  | .unconfigured => s
  | .ready => s
  | .halted => s

/-! ## CLEAR and QUERY (R171) -/

/-- A CLEAR request: the file is emptied and its first-record index becomes the index the next record takes (R171). -/
def State.workClear (s : State) : State :=
  s.modControl fun c => { c with faults := { records := [], overflow := false, firstIndex := c.faults.nextIndex } }

/-- A QUERY request (R171). -/
def State.workQuery (page : Byte) (s : State) : State := s.queueStatus (givenPage page)

end Sys2Proof.Machine
end

