-- ==== Sys2Proof/Machine/Odometer.lean ====
section
/-! DEFINITION. The odometer (chapter 1): the encoder filters and the quadrature decoder, edges with fine position,
travel, extreme point and reversal, the travel advance handed to the other blocks, stillness and the lift filter. -/

namespace Sys2Proof.Machine

/-! ## Timed limits in ticks -/

/-- The encoder filter time F (R3). -/
def State.filterTicks (s : State) : Nat := Config.ticksPerTenthMicro * s.station.encoderFilter
/-- The still time (R10). -/
def State.stillTicks (s : State) : Nat := 100 * Config.ticksPerMilli * s.station.stillTime
/-- The lift filter time (R12). -/
def State.liftTicks (s : State) : Nat := Config.ticksPerMilli * s.station.liftFilter
/-- The recovery time (R26). -/
def State.recoveryTicks (s : State) : Nat := Config.ticksPerMicro * s.station.recovery

/-! ## The encoder filters (R3) -/

/-- A filter's timing after its raw line takes `level`: started when the level is opposite to the filtered level,
abandoned when it is not (R3). -/
def filterTiming (filtered level : Level) : Option Nat := if level = filtered then none else some 0

/-- A change of a raw encoder line at the active odometer (R3). -/
def Odometer.lineChange (line : EncoderLine) (level : Level) (o : Odometer) : Odometer :=
  match line with
  | .a => { o with timingA := filterTiming o.filteredA level }
  | .b => { o with timingB := filterTiming o.filteredB level }

/-! ## The decoder (R4) -/

/-- The step of a filtered pair in the forward order of Table 1-3, from 0. -/
def pairStep : Level → Level → Nat
  | .low, .low => 0
  | .high, .low => 1
  | .high, .high => 2
  | .low, .high => 3

/-- What the decoder makes of a change of the filtered pair (R4). -/
inductive EdgeKind where
  | none
  | forward
  | backward
  | illegal
deriving DecidableEq, Repr

/-- The class of the change from one pair to another, the invert flag exchanging the senses (R4). -/
def decodeEdge (invert : Bool) (oldA oldB newA newB : Level) : EdgeKind :=
  match (pairStep newA newB + 4 - pairStep oldA oldB) % 4 with
  | 0 => .none
  | 1 => if invert then .backward else .forward
  | 3 => if invert then .forward else .backward
  | _ => .illegal

/-! ## An accepted edge (R5, R8, R9, R11) -/

/-- What a travel advance carries beside the values it leaves in the odometer (R7). -/
structure Advance where
  travel : Nat
  reversal : Bool
  afterStill : Bool
deriving DecidableEq, Repr

/-- The extreme point after an edge that leaves fine position `p` (R8). -/
def extremeAfter (d : Direction) (extreme p : FinePos) : FinePos :=
  match d with
  | .forward => if extreme.micros < p.micros then p else extreme
  | .backward => if p.micros < extreme.micros then p else extreme

/-- How far fine position `p` stands back from the extreme point, in µm (R9). -/
def comeBack (d : Direction) (extreme p : FinePos) : Int :=
  match d with
  | .forward => extreme.micros - p.micros
  | .backward => p.micros - extreme.micros

/-- The other direction. -/
def Direction.flip : Direction → Direction
  | .forward => .backward
  | .backward => .forward

/-- The edge declares a reversal (R9). -/
def Odometer.reverses (hysteresis : Nat) (p : FinePos) (o : Odometer) : Bool :=
  1000 * (hysteresis : Int) ≤ comeBack o.direction (extremeAfter o.direction o.extreme p) p

/-- The odometer after an edge of `d` µm (forward positive) of an encoder of pitch `pitch` (R5, R8, R9, R11). -/
def Odometer.edge (pitch hysteresis : Nat) (d : Int) (o : Odometer) : Odometer :=
  let p := o.pos.move d
  let rev := o.reverses hysteresis p
  { o with
    pos := p
    travel := min (o.travel + pitch) Config.travelMax
    direction := if rev then o.direction.flip else o.direction
    extreme := if rev then p else extremeAfter o.direction o.extreme p
    sinceEdge := 0
    stillMark := false }

/-! ## The travel advance (R7) -/

/-- The first edge after stillness takes the station from STILL to RUNNING (R11, R166). -/
def State.startsMoving (a : Advance) (s : State) : Bool := a.afterStill && s.control.state == .still

/-- What a travel advance brings the other blocks, one lane for each, by the state at the edge (R7): STATUS page 0 of a
station that starts to move (R165), the chain tracker, the coverage monitor and the pairing unit. -/
def State.advanceLanes (a : Advance) (s : State) : List (List Act) :=
  [if s.startsMoving a then [(.loose, State.queueStatus 0)] else [],
   s.trackAdvance a.travel a.reversal,
   [(.monitor .advance, State.coverAdvance a.travel)],
   [(.loose, State.pairAdvance a.travel)]]

/-- One travel advance handed to every other block (R7). The station starts to move first and the scheduler makes its
attempt on that state (R20, R30); then the other blocks take the advance, and the fire if a shot was formed, in one free
order, in which the tracker and the monitor each work the advance whole before the fire or the fire whole before the
advance (R60, R72, R102, R125, R148; assumption log 1). In every reachable state a station that starts to move forms no shot at that edge: its high
voltage is off, or its scheduler is busy (R27, R32). -/
def State.handAdvance (ord : Nat → Nat → Nat) (peaks : Eight Nat) (a : Advance) (s : State) : State :=
  let moving := if a.afterStill then s.tellFirstEdge else s
  let lanes := s.advanceLanes a
  if moving.formed.isEmpty then moving.inFreeOrder ord lanes
  else
    (moving.latchShot moving.formed peaks).inFreeOrder ord (lanes ++ moving.fireLanes moving.formed peaks)

/-- An accepted edge of `d` µm (R5, R7). -/
def State.acceptEdge (ord : Nat → Nat → Nat) (peaks : Eight Nat) (d : Int) (s : State) : State :=
  let moved := s.modOdo (Odometer.edge s.station.edgePitch s.station.hysteresis d)
  moved.handAdvance ord peaks
    { travel := moved.odo.travel
      reversal := s.odo.reverses s.station.hysteresis (s.odo.pos.move d)
      afterStill := s.odo.stillMark }

/-- A filter completes: the filtered level becomes the raw level and the timing ends (R3). -/
def Odometer.accept (lines : AcceptedLines) (rawA rawB : Level) (o : Odometer) : Odometer :=
  let doA := lines != .b && o.timingA.isSome
  let doB := lines != .a && o.timingB.isSome
  { o with
    filteredA := if doA then rawA else o.filteredA
    timingA := if doA then none else o.timingA
    filteredB := if doB then rawB else o.filteredB
    timingB := if doB then none else o.timingB }

/-- Accepted level changes at the decoder (R4 to R7). -/
def State.acceptLevels (ord : Nat → Nat → Nat) (lines : AcceptedLines) (peaks : Eight Nat) (s : State) : State :=
  let t := s.modOdo (Odometer.accept lines s.pins.encA s.pins.encB)
  match decodeEdge s.station.encoderInvert s.odo.filteredA s.odo.filteredB t.odo.filteredA t.odo.filteredB with
  | .none => t
  | .forward => t.acceptEdge ord peaks s.station.edgePitch
  | .backward => t.acceptEdge ord peaks (-s.station.edgePitch)
  | .illegal => t.reportFault .encoder 0

/-! ## Stillness (R10) -/

/-- The time since the last edge reaches the still time with the still mark clear (R10). -/
def State.declareStill (s : State) : State :=
  (s.modOdo fun o => { o with sinceEdge := s.stillTicks, stillMark := true }).tellStill

/-! ## The lift filter (R12, R13) -/

/-- A change of the raw lift line at the active odometer (R12). -/
def Odometer.liftChange (level : Level) (o : Odometer) : Odometer := { o with liftLevel := level, liftHeld := some 0 }

/-- The lift state a level is recognised as (R12). -/
def liftStateOf (active level : Level) : LiftState := if level = active then .raised else .lowered

/-- The level being timed is recognised; a change of the recognised state is told to station control (R12, R13). -/
def State.recogniseLift (ord : Nat → Nat → Nat) (peaks : Eight Nat) (s : State) : State :=
  let lift := liftStateOf s.station.liftActive s.odo.liftLevel
  let t := s.modOdo fun o => { o with liftHeld := none, lift := lift }
  if lift = s.odo.lift then t else t.tellLift ord peaks lift

/-! ## Activation (R1) -/

/-- The odometer becomes active: it takes the present levels of the encoder lines, and its lift filter starts timing the
present level of the lift line (R1). -/
def Odometer.activate (pins : Pins) (o : Odometer) : Odometer :=
  { o with
    active := true, filteredA := pins.encA, filteredB := pins.encB, timingA := none, timingB := none, sinceEdge := 0,
    stillMark := false, liftLevel := pins.lift, liftHeld := some 0, lift := .lowered }

end Sys2Proof.Machine
end

