-- ==== Sys2Proof/Machine/Link.lean ====
section
/-! DEFINITION. The link controller (chapter 8): the receiver and its pulses, the transmitter's comparison of what it
drives with what it hears, the frame end and the checks of a good frame, the receive queue and its dispatch, the halt
symbol and the stuck line. -/

namespace Sys2Proof.Machine

/-! ## Small changes of the link controller -/

def Link.setRx (rx : RxState) (l : Link) : Link := { l with rx := rx }
def Link.setTx (tx : TxState) (l : Link) : Link := { l with tx := tx }

/-- A dominant pulse begins; one already on the line goes on (R137). -/
def Link.rise (l : Link) : Link := { l with pulse := some (l.pulse.getD 0) }

/-- The line is released by a pulse that counts: the recessive time starts again (R138). -/
def Link.release (l : Link) : Link := { l with quiet := 0, pulse := none }

/-- The line is released by a noise pulse, which neither starts nor restarts the recessive time: the time it stood on the
line counts as recessive (R138). -/
def Link.releaseNoise (l : Link) : Link :=
  match l.pulse with
  | none => l
  | some held => { l with pulse := none, quiet := min (l.quiet + held) Config.idleTicks }

/-- The length of a pulse released after `ns` nanoseconds: no less than the time it has been known to stand on the line
(assumption log 15). -/
def Link.heldNanos (ns : Nat) (l : Link) : Nat :=
  match l.pulse with
  | none => ns
  | some held => max ns (Config.tickNanos * held)

/-- The pulse on the line, if there is one, is still short enough to be the bit `b` (Table 8-2). -/
def Link.mayBeBit (b : Bool) (l : Link) : Bool := decide (l.heldNanos 0 < if b then 2000 else 5000)

/-- The bits of the head frame, as the transmitter drives them. -/
def Link.ownBits (l : Link) : List Bool := (l.txQueue.head?.map Frame.bits).getD []

/-! ## Good frames (R150 to R152) -/

/-- A good frame at the receive queue: at its tail, or discarded and counted OVERRUN when it holds 4 frames (R152). -/
def State.enterQueue (f : Frame) (s : State) : State :=
  if s.link.rxQueue.length < Config.rxCapacity then s.modLink fun l => { l with rxQueue := l.rxQueue ++ [f] }
  else (s.count Outcomes.countOverrun).reportRxqOverrun

/-- The good frame is a request that another station is meant to take (R151). -/
def State.notForUs (s : State) (f : Frame) : Bool :=
  f.isRequest && !destinationIncludes (byteAt f.payload 0) s.control.address s.control.rail

/-- A good frame that is not an own transmission: counted RECEIVED, then the clash check, the destination check and the
receive queue (R139, R150 to R152). -/
def State.acceptGood (f : Frame) (s : State) : State :=
  let counted := s.count Outcomes.countReceived
  if f.source = s.control.address then counted.reportFault .addressClash f.source
  else if s.notForUs f then counted
  else counted.enterQueue f

/-! ## Dispatch (R153) -/

/-- The block the head frame is routed to can take it: station control takes no request while the run end is pending
(R168). -/
def State.canTake (s : State) (f : Frame) : Bool := !(f.toControl && s.control.runEndPending)

/-- The head frame leaves the receive queue, which ends an RXQ_OVERRUN episode when the queue becomes empty (R152), and
its source is shown to the pairing unit (R120, R153). -/
def State.takeHead (src : BitVec 4) (s : State) : State :=
  let rest := s.link.rxQueue.tail
  let taken := s.modLink fun l => { l with rxQueue := rest }
  (if rest.isEmpty then taken.markRxqOverrun false else taken).shown src

/-- The head of the receive queue is a frame that stands for `c`, and its block can take it. -/
def State.headReady (c : Instr) (s : State) : Bool :=
  match s.link.rxQueue.head? with
  | some f => frameCommand f == c && s.canTake f
  | none => false

/-- The frame of a command heard whole by the receiver: nothing while the receiver is INACTIVE (R141), a form error when
its length is not one its kind allows (R139 check 3), a good frame otherwise. -/
def State.hearFrame (f : Frame) (s : State) : State :=
  if s.link.rx = .inactive then s
  else if lengthOk f.kind f.payload.length then s.acceptGood f
  else s.count Outcomes.countRxForm

/-- A frame row of the table: the frame that waits at the head of the receive queue is that frame, or the frame arrives
now (assumption log 9). Dispatched, it is worked by `work` (R153). -/
def State.dispatchAs (c : Instr) (work : State → State) (s : State) : State :=
  let waiting := (s.link.rxQueue.head?.map frameCommand) == some c
  let t := match commandFrame c with
    | some f => if waiting then s else s.hearFrame f
    | none => s
  if t.headReady c then
    work (t.takeHead ((t.link.rxQueue.head?.map (·.source)).getD 0))
  else t

/-! ## The transmitter (R142 to R145) -/

/-- A transmit error: the frame leaves the queue and TX_ERROR is counted (R144). -/
def State.transmitError (s : State) : State := (s.count Outcomes.countTxError).popHead

/-- A bit heard in FRAME is collected; a SENDING transmitter compares it with the bit it drives (R137, R143, R144). A bit
heard after the last bit of the own frame is no bit of it (assumption log 11). -/
def State.hearBit (bits : List Bool) (stoppedAt : Option Nat) (b : Bool) (s : State) : State :=
  let heard := bits ++ [b]
  let collected := s.modLink (Link.setRx (.frame heard stoppedAt))
  if s.link.tx = TxState.sending ∧ s.link.ownBits[bits.length]? ≠ some b then
    if s.link.ownBits[bits.length]? = some true ∧ bits.length < arbitrationBits then
      (collected.count Outcomes.countLost).modLink (Link.setTx .backedOff)
    else (s.modLink (Link.setRx (.frame heard (some heard.length)))).transmitError
  else collected

/-- A form error pulse (R137, R138): counted RX_FORM unless the frame given up is the own one (R139, R144); the receiver
enters SEEKING. A SENDING transmitter makes a transmit error. -/
def State.hearFormError (s : State) : State :=
  let counted : State :=
    match s.link.rx with
    | .idle => s.count Outcomes.countRxForm
    | .frame _ none => if s.link.tx = .sending then s else s.count Outcomes.countRxForm
    | .frame _ (some _) => s
    | .seeking => s
    | .inactive => s
  let sought := counted.modLink (Link.setRx .seeking)
  if s.link.tx = .sending then sought.transmitError else sought

/-- The transmitter stops driving for a halt symbol or a stuck line: ABORTED is counted and the frame stays (R146,
R147). -/
def State.abortSending (s : State) : State :=
  if s.link.tx = .sending then (s.count Outcomes.countAborted).modLink (Link.setTx .waiting) else s

/-- A halt symbol recognised at its release (R146). -/
def State.hearHaltSymbol (s : State) : State := ((s.modLink (Link.setRx .seeking)).abortSending).workHalt

/-- A pulse passes 2 ms: a stuck line (R147). -/
def State.hearStuckLine (s : State) : State :=
  let sought := (s.modLink fun l => { l with rx := .seeking, pulse := some Config.stuckTicks }).abortSending
  if s.link.tx = .silenced then sought
  else (sought.modLink (Link.setTx .silenced)).reportFault .linkStuck 0

/-! ## A dominant pulse on the line (R137, Table 8-2) -/

/-- A pulse of each class, at its release. -/
def State.hearPulse (k : PulseClass) (s : State) : State :=
  let released := s.modLink Link.release
  match k with
  | .noise => (s.modLink Link.releaseNoise).count Outcomes.countNoise
  | .bit b =>
    match s.link.rx with
    | .frame bits stoppedAt => released.hearBit bits stoppedAt b
    | .inactive => released
    | .seeking => released
    | .idle => released
  | .leadMark => released.modLink (Link.setRx (.frame [] none))
  | .formError => released.hearFormError
  | .restart => released
  | .haltSymbol => released.hearHaltSymbol
  | .stuck => s.hearStuckLine.modLink Link.release

/-- A dominant pulse begins or is released: an INACTIVE receiver hears nothing (R141), any other measures the pulse from
its start and classifies it at its release, by its length and its own state (R137). -/
def State.onPulse (pulse : Pulse) (s : State) : State :=
  if s.link.rx = .inactive then s
  else
    match pulse with
    | .begins => s.modLink Link.rise
    | .released ns => s.hearPulse (classifyPulse s.link.rx (s.link.heldNanos ns))

/-- A pulse passes 2 ms (R147); an INACTIVE receiver hears nothing (R141). -/
def State.onStuckLine (s : State) : State := if s.link.rx = .inactive then s else s.hearStuckLine

/-! ## Line idle (R138, R142, R147) -/

/-- The transmitter at an idle line: SILENCED ends, and a waiting frame starts unless the line is found dominant. -/
def Link.txAtIdle (dominant : Bool) (l : Link) : TxState :=
  match l.tx with
  | .idle => .idle
  | .sending => .sending
  | .waiting => if dominant then .waiting else .sending
  | .backedOff => if dominant then .backedOff else .sending
  | .silenced => if l.txQueue.isEmpty then .idle else if dominant then .waiting else .sending

/-- The line has been recessive for 40 µs; found dominant at that moment, it carries a pulse that begins now. -/
def Link.becomeIdle (dominant : Bool) (l : Link) : Link :=
  { l with
    rx := .idle, tx := l.txAtIdle dominant, quiet := Config.idleTicks, pulse := if dominant then some 0 else none }

/-- The line is idle: a SEEKING receiver becomes IDLE, and the transmitter acts. A line with a pulse on it is not recessive
(assumption log 6). -/
def State.onLineIdle (dominant : Bool) (s : State) : State :=
  match s.link.rx, s.link.pulse with
  | .seeking, none => s.modLink (Link.becomeIdle dominant)
  | .idle, none => s.modLink (Link.becomeIdle dominant)
  | .seeking, some _ => s
  | .idle, some _ => s
  | .inactive, _ => s
  | .frame _ _, _ => s

/-! ## The frame end (R139, R145) -/

/-- The part's own frame at its frame end: SENT when it was heard back bit for bit, a transmit error otherwise. -/
def State.endOwnFrame (bits : List Bool) (s : State) : State :=
  if bits = s.link.ownBits then (s.count Outcomes.countSent).popHead else s.transmitError

/-- The judgement of a frame that is not an own transmission. A frame the own transmitter stopped counts no RX_FORM at
check 1, and no RX_CRC when nothing was heard after the stop (R139, R144). DESIGN CHOICE (assumption log 24): R139 exempts
such a frame at check 1 and at a form-error pulse by name and is silent on check 3; one that passes checks 1 and 2 and
fails check 3 counts RX_FORM. -/
def State.judgeFrame (bits : List Bool) (stoppedAt : Option Nat) (s : State) : State :=
  match judgeBits bits with
  | .badShape => if stoppedAt.isSome then s else s.count Outcomes.countRxForm
  | .badCrc => if stoppedAt = some bits.length then s else s.count Outcomes.countRxCrc
  | .badLength => s.count Outcomes.countRxForm
  | .good f => s.acceptGood f

/-- 12 µs of recessive line in FRAME: the frame is judged and the receiver enters SEEKING (R138, R139). A line with a
pulse on it is not recessive (assumption log 6). -/
def State.onFrameEnd (s : State) : State :=
  match s.link.rx, s.link.pulse with
  | .frame bits stoppedAt, none =>
    let t := s.modLink fun l => { l with rx := .seeking, quiet := max l.quiet Config.frameEndTicks }
    if s.link.tx = .sending then t.endOwnFrame bits else t.judgeFrame bits stoppedAt
  | .frame _ _, some _ => s
  | .inactive, _ => s
  | .seeking, _ => s
  | .idle, _ => s

/-! ## Arbitration loss and transmit error as commands of their own -/

/-- The bit the SENDING transmitter drives now: none when it is not SENDING a frame the receiver collects. -/
def State.drivenBit (s : State) : Option Bool :=
  match s.link.tx, s.link.rx with
  | .sending, .frame bits _ => s.link.ownBits[bits.length]?
  | _, _ => none

/-- The bit number the receiver collects next. -/
def State.bitPlace (s : State) : Nat :=
  match s.link.rx with
  | .frame bits _ => bits.length
  | .inactive => 0
  | .seeking => 0
  | .idle => 0

/-- The part drives a 1 and hears a 0 in the arbitration field (R143). -/
def State.onArbitrationLost (s : State) : State :=
  if s.drivenBit = some true ∧ s.bitPlace < arbitrationBits ∧ s.link.mayBeBit false = true then s.hearPulse (.bit false)
  else s

/-- The bit `b` heard in place of the driven bit is a transmit error and not an arbitration loss (R144). -/
def State.isErrorBit (s : State) (b : Bool) : Bool :=
  match s.drivenBit with
  | some d => d != b && !(d && s.bitPlace < arbitrationBits)
  | none => false

/-- The receiver is in FRAME. -/
def State.collecting (s : State) : Bool :=
  match s.link.rx with
  | .frame _ _ => true
  | .inactive => false
  | .seeking => false
  | .idle => false

/-- The own transmitter stops the frame being collected, if one is. -/
def Link.markStopped (l : Link) : Link :=
  match l.rx with
  | .frame bits _ => l.setRx (.frame bits (some bits.length))
  | .inactive => l
  | .seeking => l
  | .idle => l

/-- A 0 of the frame being sent has not been heard yet; the receiver of a line broken open from the start is still IDLE,
since it has not heard the lead mark either (R144). -/
def State.zeroUnheard (s : State) : Bool :=
  match s.link.rx with
  | .frame bits _ => (s.link.ownBits.drop bits.length).contains false
  | .idle => s.link.ownBits.contains false
  | .inactive => false
  | .seeking => false

/-- A SENDING transmitter hears what is no bit of its own (R144): the error's own cases, nothing in any other. A pulse
already on the line decides what can still be heard (assumption logs 6 and 15). Nothing heard is an error at the first 0
driven, and none when every 0 has been heard (assumption log 11). -/
def State.onTransmitError (heard : Heard) (s : State) : State :=
  if s.link.tx = .sending then
    match heard with
    | .bit b => if s.isErrorBit b ∧ s.link.mayBeBit b = true then s.hearPulse (.bit b) else s
    | .pulse ns =>
      if s.collecting ∧ 5000 ≤ s.link.heldNanos ns ∧ s.link.heldNanos ns < 100000 then s.hearPulse .formError else s
    | .nothing =>
      if s.link.pulse = none ∧ s.zeroUnheard = true then (s.modLink Link.markStopped).transmitError else s
  else s

end Sys2Proof.Machine
end

