-- ==== Sys2Proof/Machine/Start.lean ====
section
/-! DEFINITION. Reset and start-up (sections 9.2 and 9.3): the conditions that hold the part in reset, the end of a
reset, and the end of STARTING with the checks of the configuration image. -/

namespace Sys2Proof.Machine

/-! ## The straps (R159) -/

/-- The address straps as a binary number, ADS0 giving the least significant bit (R159). DEDUCED (assumption log 26): a
high strap is a 1. -/
def strapAddress (p : Straps) : BitVec 4 :=
  flagBit (p.ads3 == .high) ++ flagBit (p.ads2 == .high) ++ flagBit (p.ads1 == .high) ++ flagBit (p.ads0 == .high)

/-- The rail strap: low is LEFT, high is RIGHT (R159). -/
def strapRail (p : Straps) : Rail :=
  match p.rails with
  | .low => .left
  | .high => .right

/-! ## Reset (R157, R158) -/

/-- A condition holding the part in reset (R157). -/
def Hold.add (cause : ResetCause) (h : Hold) : Hold :=
  match cause with
  | .power => { h with power := true }
  | .line => { h with line := true }
  | .supply => { h with supply := true }

/-- The part is held in reset. -/
def Hold.any (h : Hold) : Bool := h.power || h.line || h.supply

/-- The cause recorded on leaving reset: POWER, else SUPPLY, else LINE, of the conditions that arose (R157). -/
def Hold.recorded (h : Hold) : ResetCause := if h.power then .power else if h.supply then .supply else .line

/-- Every block but station control at its values after reset, the loader idle (R2, R18, R58, R79, R97, R114, R141). The
lines, the free orders taken and the commands waiting are not the part's to reset. -/
def State.clearBlocks (s : State) : State :=
  { s with
    odo := Odometer.afterReset, sched := Scheduler.afterReset, pulser := Pulser.afterReset,
    tracker := Tracker.afterReset, judge := Judge.afterReset, cover := Coverage.afterReset, pair := Pairing.afterReset,
    link := Link.afterReset, loader := Loader.idle }

/-- The part is held in reset: the blocks stand at their values after reset and the link is released (R136, R157). The
straps and the cause are taken at the end of the hold, and until then the fault file, the address and the rail stand. -/
def State.holdInReset (cause : ResetCause) (s : State) : State :=
  { s.clearBlocks with
    hold := s.hold.add cause
    control := Control.afterReset s.control.cause s.control.address s.control.rail s.control.faults }

/-- The fault file after a reset of the given cause: a LINE reset keeps it (R158). -/
def faultsAfter (cause : ResetCause) (f : FaultFile) : FaultFile :=
  match cause with
  | .line => f
  | .power => FaultFile.empty
  | .supply => FaultFile.empty

/-- The last condition holding the part in reset ends: the cause is recorded, the straps are read, and STARTING begins
with the load (R157 to R160). -/
def State.leaveReset (cause : ResetCause) (straps : Straps) (s : State) : State :=
  let recorded := (s.hold.add cause).recorded
  { s.clearBlocks with
    hold := Hold.none
    loader := Loader.started
    control :=
      Control.afterReset recorded (strapAddress straps) (strapRail straps) (faultsAfter recorded s.control.faults) }

/-! ## The end of STARTING (R160 to R164) -/

/-- The loader has read the image bytes and releases the memory (R160). -/
def Loader.finish (img : List Byte) (l : Loader) : Loader :=
  { l with selected := false, image := img, clocks := loadClocks img.length }

/-- The link controller becomes active: the receiver seeks idle line, and a transmitter with a notice queued waits
(R141, R164). -/
def Link.activate (l : Link) : Link :=
  { l with rx := .seeking, tx := if l.txQueue.isEmpty then l.tx else .waiting, quiet := 0, pulse := none }

/-- Station control after the checks: READY with the configuration, or UNCONFIGURED with the fault offset (R161 to
R163). -/
def Control.load (o : LoadOutcome) (c : Control) : Control :=
  match o with
  | .structurallyBad => { c with state := .unconfigured, faultOffset := 0, imageId := 0 }
  | .stationBad imageId offset => { c with state := .unconfigured, faultOffset := offset, imageId := imageId }
  | .good imageId config =>
    { c with state := .ready, config := some config, configuredMask := usableMask config, faultOffset := 0,
             imageId := imageId }

/-- The odometer becomes active on entry to READY (R1, R164). -/
def State.startOdometer (s : State) : State :=
  if s.control.state = .ready then s.modOdo (Odometer.activate s.pins) else s

/-- The checks are complete: the station enters READY or UNCONFIGURED, the link and, in READY, the odometer become
active, and a fresh ANNOUNCE and STATUS page 0 are queued (R164). -/
def State.endStarting (memory : List Byte) (s : State) : State :=
  let img := loadedBytes memory
  let loaded := { s with loader := s.loader.finish img }.modControl (Control.load (checkImage img))
  ((loaded.modLink Link.activate).startOdometer.queueAnnounce true).queueStatus 0

/-- The part is in STARTING and no condition holds it in reset: only then can a load complete (R157, R160). -/
def State.loading (s : State) : Bool := s.control.state == .starting && !s.hold.any

end Sys2Proof.Machine
end

