-- ==== Sys2Proof/Machine/Shot.lean ====
section
/-! DEFINITION. The end of a shot's listening, the end of the recovery and the end of the high-voltage settle (sections
2.4 to 2.6), as the scheduler, the gate processor, the chain tracker and the coverage monitor take them. -/

namespace Sys2Proof.Machine

/-- The scheduler after a listening end: OFF with the high voltage off when the station is READY by a STOP (R33),
RECOVERING otherwise (R26). -/
def State.schedListeningEnd (s : State) : State :=
  if s.control.state = .ready then s.schedOffHvOff else s.setSched (.recovering s.recoveryTicks)

/-- The listening end of a shot (R26): its traces are worked and its results delivered to the chain tracker and the
coverage monitor, each of which takes them in its own order, in a free order between the two (R39, R61, R82; assumption
log 1). -/
def State.endListening (ord : Nat → Nat → Nat) (shot : Shot) (traces : Eight (List Byte)) (s : State) : State :=
  let worked := s.workShot shot traces
  let results := worked.map (·.1)
  let counted := s.addExcess (worked.map (·.2)).sum
  (counted.inFreeOrder ord
    [counted.trackListeningEnd shot.set results, coverResults results]).schedListeningEnd

/-- A LISTENING_END: of the shot in flight, nothing when there is none. -/
def State.onListeningEnd (ord : Nat → Nat → Nat) (traces : Eight (List Byte)) (s : State) : State :=
  match s.sched.state with
  | .listening shot => s.endListening ord shot traces
  | .off => s
  | .settling => s
  | .free => s
  | .recovering _ => s

/-- The scheduler at the end of its recovery (R27): FREE with a forming attempt in RUNNING with the high voltage READY,
OFF otherwise, with the high voltage switched off in STILL and in a LIFTED entered from STILL. -/
def State.endRecovery (ord : Nat → Nat → Nat) (peaks : Eight Nat) (s : State) : State :=
  if s.control.state = .running ∧ s.pulser.hv = .ready then (s.setSched .free).attempt ord peaks
  else if s.control.state = .still ∨ (s.control.state = .lifted ∧ s.control.liftFromStill) then s.schedOffHvOff
  else s.setSched .off

/-- A RECOVERY_END: of the recovery in progress, nothing when there is none. -/
def State.onRecoveryEnd (ord : Nat → Nat → Nat) (peaks : Eight Nat) (s : State) : State :=
  match s.sched.state with
  | .recovering _ => s.endRecovery ord peaks
  | .off => s
  | .settling => s
  | .free => s
  | .listening _ => s

/-- The settle ends: the high voltage is READY, and a SETTLING scheduler of a RUNNING station becomes FREE with a forming
attempt (R29). -/
def State.endSettle (ord : Nat → Nat → Nat) (peaks : Eight Nat) (s : State) : State :=
  let ready := s.modPulser fun p => { p with hv := .ready }
  if s.sched.state = .settling ∧ s.control.state = .running then (ready.setSched .free).attempt ord peaks else ready

/-- A SETTLE_COMPLETE: of the settle in progress, nothing when there is none. -/
def State.onSettleComplete (ord : Nat → Nat → Nat) (peaks : Eight Nat) (s : State) : State :=
  match s.pulser.hv with
  | .settling _ => s.endSettle ord peaks
  | .off => s
  | .ready => s

end Sys2Proof.Machine
end

