-- ==== Sys2Proof/Machine/Events.lean ====
section
/-! DEFINITION. The meanings of the reset, start-up, sensor and shot commands: RESET, STARTING_END, ENCODER_LINE_CHANGE,
ENCODER_LEVEL_ACCEPTED, STILLNESS, LIFT_LINE_CHANGE, LIFT_RECOGNISED, LISTENING_END, RECOVERY_END, SETTLE_COMPLETE and
HELD_IN_RESET. A command whose event cannot occur as the part stands changes nothing (assumption log 6). -/

namespace Sys2Proof.Machine

/-- RESET (R157 to R160). -/
def execReset (cause : ResetCause) (straps : Straps) (s : State) : Host.Outcome State Fault Refusal :=
  .next (s.leaveReset cause straps)

/-- HELD_IN_RESET (R157). -/
def execHeldInReset (cause : ResetCause) (s : State) : Host.Outcome State Fault Refusal := .next (s.holdInReset cause)

/-- STARTING_END (R160 to R164). -/
def execStartingEnd (memory : List Byte) (s : State) : Host.Outcome State Fault Refusal :=
  .next (if s.loading then s.endStarting memory else s)

/-- The level of an encoder line. -/
def Pins.encoder (p : Pins) : EncoderLine → Level
  | .a => p.encA
  | .b => p.encB

/-- The pins with an encoder line at a level. -/
def Pins.setEncoder (line : EncoderLine) (level : Level) (p : Pins) : Pins :=
  match line with
  | .a => { p with encA := level }
  | .b => { p with encB := level }

/-- A raw encoder line takes a level (R3): an inactive odometer only sees the line (R1). -/
def State.encoderLine (line : EncoderLine) (level : Level) (s : State) : State :=
  let t := { s with pins := s.pins.setEncoder line level }
  if s.odo.active ∧ s.pins.encoder line ≠ level then t.modOdo (Odometer.lineChange line level) else t

/-- ENCODER_LINE_CHANGE (R3). -/
def execEncoderLineChange (line : EncoderLine) (level : Level) (s : State) : Host.Outcome State Fault Refusal :=
  .next (s.encoderLine line level)

/-- ENCODER_LEVEL_ACCEPTED (R3 to R7). -/
def execEncoderLevelAccepted (lines : AcceptedLines) (peaks : Eight Nat) (s : State) :
    Host.Outcome State Fault Refusal :=
  .next (if s.odo.active then s.acceptLevels Config.order lines peaks else s)

/-- STILLNESS (R10). -/
def execStillness (s : State) : Host.Outcome State Fault Refusal :=
  .next (if s.odo.active && !s.odo.stillMark then s.declareStill else s)

/-- The raw lift line takes a level (R12): an inactive odometer only sees the line (R1). -/
def State.liftLine (level : Level) (s : State) : State :=
  let t := { s with pins := { s.pins with lift := level } }
  if s.odo.active ∧ s.pins.lift ≠ level then t.modOdo (Odometer.liftChange level) else t

/-- LIFT_LINE_CHANGE (R12). -/
def execLiftLineChange (level : Level) (s : State) : Host.Outcome State Fault Refusal := .next (s.liftLine level)

/-- LIFT_RECOGNISED (R12, R13). -/
def execLiftRecognised (peaks : Eight Nat) (s : State) : Host.Outcome State Fault Refusal :=
  .next (if s.odo.active && s.odo.liftHeld.isSome then s.recogniseLift Config.order peaks else s)

/-- LISTENING_END (R26). -/
def execListeningEnd (traces : Eight (List Byte)) (s : State) : Host.Outcome State Fault Refusal :=
  .next (s.onListeningEnd Config.order traces)

/-- RECOVERY_END (R27). -/
def execRecoveryEnd (peaks : Eight Nat) (s : State) : Host.Outcome State Fault Refusal :=
  .next (s.onRecoveryEnd Config.order peaks)

/-- SETTLE_COMPLETE (R29). -/
def execSettleComplete (peaks : Eight Nat) (s : State) : Host.Outcome State Fault Refusal :=
  .next (s.onSettleComplete Config.order peaks)

end Sys2Proof.Machine
end

