-- ==== Sys2Proof/Machine/Requests.lean ====
section
/-! DEFINITION. The meanings of the request frames RUN, STOP, HALT, ZONE, FLUSH, CLEAR and QUERY, and of RUN_END (sections
9.5 and 10.3). -/

namespace Sys2Proof.Machine

/-- RUN (R167). -/
def execRun (src : BitVec 4) (dest : Byte) (runNumber : BitVec 16) (start : BitVec 32) (s : State) :
    Host.Outcome State Fault Refusal :=
  .next (s.dispatchAs (.run src dest runNumber start) (State.workRun runNumber start))

/-- STOP (R168). -/
def execStop (src : BitVec 4) (dest : Byte) (s : State) : Host.Outcome State Fault Refusal :=
  .next (s.dispatchAs (.stop src dest) State.workStop)

/-- RUN_END (R113, R168): the run end of a STOP, once it is due. -/
def execRunEnd (s : State) : Host.Outcome State Fault Refusal := .next (if s.runEndDue then s.applyRunEnd else s)

/-- HALT (R169). -/
def execHalt (src : BitVec 4) (dest : Byte) (s : State) : Host.Outcome State Fault Refusal :=
  .next (s.dispatchAs (.halt src dest) State.workHalt)

/-- ZONE (R91). -/
def execZone (src : BitVec 4) (dest : Byte) (index : Byte) (base limit : BitVec 32) (s : State) :
    Host.Outcome State Fault Refusal :=
  .next (s.dispatchAs (.zone src dest index base limit) (State.receiveZone index base.toInt limit.toInt))

/-- FLUSH (R134). -/
def execFlush (src : BitVec 4) (dest : Byte) (scope : Byte) (peer : BitVec 4) (s : State) :
    Host.Outcome State Fault Refusal :=
  .next (s.dispatchAs (.flush src dest scope peer) (State.receiveFlush scope peer))

/-- CLEAR (R171). -/
def execClear (src : BitVec 4) (dest : Byte) (s : State) : Host.Outcome State Fault Refusal :=
  .next (s.dispatchAs (.clear src dest) State.workClear)

/-- QUERY (R171). -/
def execQuery (src : BitVec 4) (dest : Byte) (page : Byte) (s : State) : Host.Outcome State Fault Refusal :=
  .next (s.dispatchAs (.query src dest page) (State.workQuery page))

end Sys2Proof.Machine
end

