-- ==== Sys2Proof/Machine/Notices.lean ====
section
/-! DEFINITION. The meanings of the notice frames of other participants: ANNOUNCE, INDICATION, GAP, SPAN, FAULT, STATUS and
frames of an unknown kind (R153, chapter 7). -/

namespace Sys2Proof.Machine

/-- ANNOUNCE (R118, R119). -/
def execAnnounce (src : BitVec 4) (fields : AnnounceFields) (s : State) : Host.Outcome State Fault Refusal :=
  .next (s.dispatchAs (.announce src fields) (State.receiveAnnounce src fields))

/-- INDICATION (R130 to R133). -/
def execIndication (src : BitVec 4) (fields : IndicationFields) (s : State) : Host.Outcome State Fault Refusal :=
  .next (s.dispatchAs (.indication src fields) (State.receiveIndication src fields))

/-- GAP (R121). -/
def execGap (src : BitVec 4) (fields : GapFields) (s : State) : Host.Outcome State Fault Refusal :=
  .next (s.dispatchAs (.gap src fields) (State.receiveGap src fields))

/-- SPAN (R121): for liveness only. -/
def execSpan (src : BitVec 4) (fields : SpanFields) (s : State) : Host.Outcome State Fault Refusal :=
  .next (s.dispatchAs (.span src fields) id)

/-- FAULT (R153): for liveness only. -/
def execFault (src : BitVec 4) (fields : FaultFields) (s : State) : Host.Outcome State Fault Refusal :=
  .next (s.dispatchAs (.fault src fields) id)

/-- STATUS (R153): for liveness only. -/
def execStatus (src : BitVec 4) (fields : StatusFields) (s : State) : Host.Outcome State Fault Refusal :=
  .next (s.dispatchAs (.status src fields) id)

/-- UNKNOWN_KIND (R153). -/
def execUnknownKind (src : BitVec 4) (kind : BitVec 6) (payload : List Byte) (s : State) :
    Host.Outcome State Fault Refusal :=
  .next (s.dispatchAs (.unknownKind src kind payload) (State.count Outcomes.countUnknown))

end Sys2Proof.Machine
end

