-- ==== Sys2Proof/Machine/Line.lean ====
section
/-! DEFINITION. The meanings of the events on the link's line: LINE_IDLE, FRAME_END, ARBITRATION_LOST, TRANSMIT_ERROR,
STUCK_LINE and the pulses of Table 8-2. The row of a pulse says which class the table expects of it; what it does follows
from its length and the receiver's state alone (R137; assumption log 10). -/

namespace Sys2Proof.Machine

/-- LINE_IDLE (R138, R142, R147). -/
def execLineIdle (dominant : Bool) (s : State) : Host.Outcome State Fault Refusal := .next (s.onLineIdle dominant)

/-- FRAME_END (R139, R145, R150 to R152). -/
def execFrameEnd (s : State) : Host.Outcome State Fault Refusal := .next s.onFrameEnd

/-- ARBITRATION_LOST (R143). -/
def execArbitrationLost (s : State) : Host.Outcome State Fault Refusal := .next s.onArbitrationLost

/-- TRANSMIT_ERROR (R144). -/
def execTransmitError (heard : Heard) (s : State) : Host.Outcome State Fault Refusal := .next (s.onTransmitError heard)

/-- HALT_SYMBOL (R146). -/
def execHaltSymbol (pulse : Pulse) (s : State) : Host.Outcome State Fault Refusal :=
  .next (s.onPulse pulse)

/-- STUCK_LINE (R147). -/
def execStuckLine (s : State) : Host.Outcome State Fault Refusal := .next s.onStuckLine

/-- NOISE_PULSE (R137). -/
def execNoisePulse (pulse : Pulse) (s : State) : Host.Outcome State Fault Refusal :=
  .next (s.onPulse pulse)

/-- FORM_ERROR (R137). -/
def execFormError (pulse : Pulse) (s : State) : Host.Outcome State Fault Refusal :=
  .next (s.onPulse pulse)

/-- LEAD_MARK (R138). -/
def execLeadMark (pulse : Pulse) (s : State) : Host.Outcome State Fault Refusal :=
  .next (s.onPulse pulse)

/-- BIT_RECEIVED (R137, R143, R144). -/
def execBitReceived (pulse : Pulse) (s : State) : Host.Outcome State Fault Refusal :=
  .next (s.onPulse pulse)

/-- WAIT_FOR_IDLE_RESTART (R138). -/
def execWaitForIdleRestart (pulse : Pulse) (s : State) : Host.Outcome State Fault Refusal :=
  .next (s.onPulse pulse)

end Sys2Proof.Machine
end

