-- ==== Sys2Proof/Machine/Dispatch.lean ====
section
/-! DEFINITION. The dispatch of a command to its meaning: one arm for each constructor of `Instr`. -/

namespace Sys2Proof.Machine

def exec (i : Instr) (s : State) : Host.Outcome State Fault Refusal :=
  match i with
  | .reset cause straps => Sys2Proof.Machine.execReset cause straps s
  | .startingEnd memory => Sys2Proof.Machine.execStartingEnd memory s
  | .encoderLineChange line level => Sys2Proof.Machine.execEncoderLineChange line level s
  | .encoderLevelAccepted lines peaks => Sys2Proof.Machine.execEncoderLevelAccepted lines peaks s
  | .stillness => Sys2Proof.Machine.execStillness s
  | .liftLineChange level => Sys2Proof.Machine.execLiftLineChange level s
  | .liftRecognised peaks => Sys2Proof.Machine.execLiftRecognised peaks s
  | .listeningEnd traces => Sys2Proof.Machine.execListeningEnd traces s
  | .recoveryEnd peaks => Sys2Proof.Machine.execRecoveryEnd peaks s
  | .settleComplete peaks => Sys2Proof.Machine.execSettleComplete peaks s
  | .run src dest runNumber start => Sys2Proof.Machine.execRun src dest runNumber start s
  | .stop src dest => Sys2Proof.Machine.execStop src dest s
  | .runEnd => Sys2Proof.Machine.execRunEnd s
  | .halt src dest => Sys2Proof.Machine.execHalt src dest s
  | .zone src dest index base limit => Sys2Proof.Machine.execZone src dest index base limit s
  | .flush src dest scope peer => Sys2Proof.Machine.execFlush src dest scope peer s
  | .clear src dest => Sys2Proof.Machine.execClear src dest s
  | .query src dest page => Sys2Proof.Machine.execQuery src dest page s
  | .announce src fields => Sys2Proof.Machine.execAnnounce src fields s
  | .indication src fields => Sys2Proof.Machine.execIndication src fields s
  | .gap src fields => Sys2Proof.Machine.execGap src fields s
  | .span src fields => Sys2Proof.Machine.execSpan src fields s
  | .fault src fields => Sys2Proof.Machine.execFault src fields s
  | .status src fields => Sys2Proof.Machine.execStatus src fields s
  | .unknownKind src kind payload => Sys2Proof.Machine.execUnknownKind src kind payload s
  | .lineIdle dominant => Sys2Proof.Machine.execLineIdle dominant s
  | .frameEnd => Sys2Proof.Machine.execFrameEnd s
  | .arbitrationLost => Sys2Proof.Machine.execArbitrationLost s
  | .transmitError heard => Sys2Proof.Machine.execTransmitError heard s
  | .haltSymbol pulse => Sys2Proof.Machine.execHaltSymbol pulse s
  | .stuckLine => Sys2Proof.Machine.execStuckLine s
  | .noisePulse pulse => Sys2Proof.Machine.execNoisePulse pulse s
  | .formError pulse => Sys2Proof.Machine.execFormError pulse s
  | .leadMark pulse => Sys2Proof.Machine.execLeadMark pulse s
  | .bitReceived pulse => Sys2Proof.Machine.execBitReceived pulse s
  | .waitForIdleRestart pulse => Sys2Proof.Machine.execWaitForIdleRestart pulse s
  | .heldInReset cause => Sys2Proof.Machine.execHeldInReset cause s

end Sys2Proof.Machine
end

