-- ==== Sys2Proof/Machine/Clock.lean ====
section
/-! DEFINITION. What the part does while no command waits (assumption log 7): an event that is due and needs nothing from
outside happens; with an event due that brings operands from outside (a level accepted, a lift recognised, the traces of
a shot, the peaks of a fire) time waits for its command; otherwise one tick of 20 ns passes on every timer. -/

namespace Sys2Proof.Machine

/-! ## Events that are due -/

/-- The transmitter drives the line: it is SENDING a frame whose last bit the receiver has not heard yet, and nothing
has made it stop (R136). It stops at once at a dominant pulse that is no bit of its own frame, before the pulse's release
decides between a transmit error and an abort (R137, R144, R146, R147): in FRAME at 5 µs, which marks the frame as stopped
(`RxState.giveUp`), and in IDLE past 12 µs, which no lead mark lasts (assumption log 15). -/
def Link.driving (l : Link) : Bool :=
  l.tx == .sending &&
    match l.rx with
    | .frame bits stoppedAt => stoppedAt.isNone && decide (bits.length < l.ownBits.length)
    | .idle => l.pulse.all fun held => decide (held ≤ Config.leadTicks)
    | .inactive => false
    | .seeking => false

/-- The frame end is due: 12 µs of recessive line in FRAME (R138). -/
def Link.frameEndDue (l : Link) : Bool :=
  match l.rx with
  | .frame _ _ => decide (Config.frameEndTicks ≤ l.quiet) && l.pulse.isNone && !l.driving
  | .inactive => false
  | .seeking => false
  | .idle => false

/-- A frame waits for an idle line. -/
def TxState.waits : TxState → Bool
  | .waiting => true
  | .backedOff => true
  | .silenced => true
  | .idle => false
  | .sending => false

/-- The line has been idle for 40 µs and the receiver seeks it, or a frame waits to start on a line already idle (R138,
R142). -/
def Link.idleDue (l : Link) : Bool :=
  decide (Config.idleTicks ≤ l.quiet) && l.pulse.isNone &&
    match l.rx with
    | .seeking => true
    | .idle => l.tx.waits
    | .inactive => false
    | .frame _ _ => false

/-- The pulse on the line is past 2 ms and has not been taken as a stuck line yet (R137, R147). -/
def Link.stuckDue (l : Link) : Bool :=
  l.rx != .inactive && l.tx != .silenced && l.pulse.any fun held => decide (Config.stuckTicks ≤ held)

/-- The time since the last edge has reached the still time (R10). -/
def State.stillDue (s : State) : Bool :=
  s.odo.active && !s.odo.stillMark && decide (s.stillTicks ≤ s.odo.sinceEdge)

/-- The command that dispatches the head of the receive queue, when its block can take it (R153). -/
def State.dispatchDue (s : State) : Option Instr :=
  match s.link.rxQueue.head? with
  | some f => if s.canTake f then some (frameCommand f) else none
  | none => none

/-- The event that is due and needs nothing from outside, the run end of a STOP first. -/
def State.dueCommand (s : State) : Option Instr :=
  if s.runEndDue then some .runEnd
  else
    match s.dispatchDue with
    | some c => some c
    | none =>
      if s.stillDue then some .stillness
      else if s.link.stuckDue then some .stuckLine
      else if s.link.frameEndDue then some .frameEnd
      else if s.link.idleDue then some (.lineIdle false)
      else none

/-! ## Events that wait for their operands -/

/-- A timer has reached a limit at which the command that ends it brings operands from outside. -/
def State.operandsDue (s : State) : Bool :=
  s.odo.timingA.any (fun t => decide (s.filterTicks ≤ t)) || s.odo.timingB.any (fun t => decide (s.filterTicks ≤ t)) ||
    s.odo.liftHeld.any (fun t => decide (s.liftTicks ≤ t)) ||
    (match s.sched.state with
     | .listening shot => shot.listenLeft == 0
     | .recovering left => left == 0
     | .off => false
     | .settling => false
     | .free => false) ||
    (match s.pulser.hv with
     | .settling t => decide (Config.settleTicks ≤ t)
     | .off => false
     | .ready => false)

/-! ## One tick of 20 ns -/

/-- The odometer's timers: the encoder filters, the time since the last edge (held at the still time) and the lift
filter. -/
def Odometer.tick (still : Nat) (o : Odometer) : Odometer :=
  { o with
    timingA := o.timingA.map (· + 1)
    timingB := o.timingB.map (· + 1)
    sinceEdge := if o.active then min (o.sinceEdge + 1) still else o.sinceEdge
    liftHeld := o.liftHeld.map (· + 1) }

/-- The listening and recovery times left. -/
def SchedState.tick : SchedState → SchedState
  | .listening shot => .listening { shot with listenLeft := shot.listenLeft - 1 }
  | .recovering left => .recovering (left - 1)
  | .off => .off
  | .settling => .settling
  | .free => .free

/-- The settle time. -/
def HighVoltage.tick : HighVoltage → HighVoltage
  | .settling t => .settling (t + 1)
  | .off => .off
  | .ready => .ready

/-- A receiver in FRAME gives up what it has collected once a pulse has lasted 5 µs; what the pulse was is decided at
its release or at 2 ms (R137). A SENDING transmitter stops driving its frame at that moment (R136). -/
def RxState.giveUp (sending : Bool) : RxState → RxState
  | .frame _ stoppedAt => .frame [] (if sending then some 0 else stoppedAt)
  | .inactive => .inactive
  | .seeking => .seeking
  | .idle => .idle

/-- The link's measures of the line: how long the pulse on it has lasted, held at the first tick past 2 ms; with no pulse,
how long it has been recessive, held at 40 µs, which stands while the part drives the line (R137, R138). An INACTIVE
receiver measures nothing (R141). -/
def Link.tick (l : Link) : Link :=
  if l.rx = .inactive then l
  else
    match l.pulse with
    | some held =>
      { l with
        pulse := some (min (held + 1) Config.stuckTicks)
        rx := if Config.giveUpTicks ≤ held + 1 then l.rx.giveUp (l.tx == .sending) else l.rx }
    | none => { l with quiet := if l.driving then l.quiet else min (l.quiet + 1) Config.idleTicks }

/-- One tick of 20 ns on every timer. -/
def State.tick (s : State) : State :=
  (((s.modOdo (Odometer.tick s.stillTicks)).modSched fun c => { c with state := c.state.tick }).modPulser fun p =>
    { p with hv := p.hv.tick }).modLink Link.tick

/-- The part with no command waiting. -/
def idle (s : State) : Host.Outcome State Fault Refusal :=
  match s.dueCommand with
  | some c => exec c s
  | none => .next (if s.operandsDue then s else s.tick)

end Sys2Proof.Machine
end

