-- ==== Sys2Proof/Machine/Step.lean ====
section
/-! DEFINITION. One step of the DZ-816: the command at the front of the queue is taken and worked whole; with no command
waiting the part goes on by itself (assumption log 7). -/

namespace Sys2Proof.Machine

/-- One step: the front command of the queue, worked with the queue's rest. -/
def step (s : State) : Host.Outcome State Fault Refusal :=
  match s.pending with
  | c :: rest => exec c { s with pending := rest }
  | [] => idle s

/-- `s` with the command the word spells at the front of its queue; `s` where the word spells none. -/
def State.withFetchWord (s : State) (nbits w : Nat) : State :=
  match Sys2Proof.decodeTableWord nbits w with
  | some c => { s with pending := c :: s.pending }
  | none => s

end Sys2Proof.Machine
end

