-- ==== Sys2Proof/Safety.lean ====
section
/-! DEFINITION. What a sound state of the part is, in the terms the statements use: no collection above its capacity,
the peer table with one entry to an address, no counter above its top, chain numbers in creation order, gap starts
present exactly while a cause stands, fine positions in their range, the link at rest exactly while the station is
STARTING, and the transmitter's state in step with its queue; and, in the statements' terms, the notices by what they
show, what queueing and dropping one leaves, what the GAP notices of one event are, what matches, and what a fire
leaves. -/

namespace Sys2Proof.Machine

/-- The peer table holds at most 15 entries, one for each address and none for the own address (Table 7-2, R118), and no
frame of the own address waits to be dispatched (R150). -/
def State.peersSound (s : State) : Prop :=
  s.pair.peers.length ≤ Config.peerCapacity ∧ (s.pair.peers.map (·.address)).Nodup ∧
  (∀ q ∈ s.pair.peers, q.address ≠ s.control.address) ∧ ∀ f ∈ s.link.rxQueue, f.source ≠ s.control.address

/-- No collection holds more than its capacity (R57, R118, R123, R124, R148, R152, R172). -/
def State.withinCapacity (s : State) : Prop :=
  s.link.txQueue.length ≤ Config.txCapacity ∧ s.link.rxQueue.length ≤ Config.rxCapacity ∧
  s.control.faults.records.length ≤ Config.faultCapacity ∧ s.tracker.chains.length ≤ Config.chainCapacity ∧
  s.pair.notices.length ≤ Config.peerNoticeCapacity ∧ s.pair.own.length ≤ Config.ownCapacity ∧ s.peersSound

/-- No outcome counter stands above 65535 (R155). -/
def Outcomes.inRange (c : Outcomes) : Prop :=
  c.sent ≤ Config.counterMax ∧ c.lost ≤ Config.counterMax ∧ c.txError ≤ Config.counterMax ∧
  c.aborted ≤ Config.counterMax ∧ c.received ≤ Config.counterMax ∧ c.rxCrc ≤ Config.counterMax ∧
  c.rxForm ≤ Config.counterMax ∧ c.overrun ≤ Config.counterMax ∧ c.unknown ≤ Config.counterMax ∧
  c.noise ≤ Config.counterMax

/-- No drop counter stands above 65535 (R148). -/
def Drops.inRange (d : Drops) : Prop :=
  d.indication ≤ Config.counterMax ∧ d.gap ≤ Config.counterMax ∧ d.span ≤ Config.counterMax ∧
  d.other ≤ Config.counterMax

/-- No saturating counter stands above its top (scope section 3.3): the outcome and drop counters, the judge's three,
the tracker's two, the pairing unit's one, and the first-record index. -/
def State.countersInRange (s : State) : Prop :=
  s.link.counts.inRange ∧ s.link.drops.inRange ∧ s.judge.rejected ≤ Config.counterMax ∧
  s.judge.suppressed ≤ Config.counterMax ∧ s.judge.excess ≤ Config.counterMax ∧
  s.tracker.discarded ≤ Config.counterMax ∧ s.tracker.dropped ≤ Config.counterMax ∧
  s.pair.lost ≤ Config.counterMax ∧ s.control.faults.firstIndex ≤ Config.counterMax

/-- The chains stand in creation order and below the next creation number (R57). -/
def State.chainsInOrder (s : State) : Prop :=
  s.tracker.chains.Pairwise (fun a b => a.number < b.number) ∧
  ∀ c ∈ s.tracker.chains, c.number < s.tracker.nextNumber

/-- An element's gap start is present exactly while its cause set is non-empty (R102 to R104). -/
def State.gapsConsistent (s : State) : Prop :=
  ∀ e : Element, (s.cover.element.get e).gapStart.isSome = (s.cover.element.get e).causes.nonempty

/-- A fine position whose remainder is 0 to 999 and whose whole part is in the signed 32-bit range (R5). -/
def FinePos.inRange (p : FinePos) : Prop := p.um ≤ 999 ∧ Config.positionMin ≤ p.mm ∧ p.mm ≤ Config.positionMax

/-- The odometer's fine position and travel lie in their ranges (R5). -/
def State.odometerInRange (s : State) : Prop := s.odo.pos.inRange ∧ s.odo.travel ≤ Config.travelMax

/-- The next sequence number lies in 1 to 65535 (R94). -/
def State.sequenceInRange (s : State) : Prop := 1 ≤ s.judge.nextSeq ∧ s.judge.nextSeq ≤ 65535

/-- The receiver is INACTIVE exactly while the station is STARTING (R141). -/
def State.linkActiveOutsideStarting (s : State) : Prop :=
  s.link.rx = .inactive ↔ s.control.state = .starting

/-- While the station is STARTING, the blocks stand at their values after reset and no run end is pending (R141, R157,
R160). -/
def State.atRestInStarting (s : State) : Prop :=
  s.control.state = .starting →
    s.odo = Odometer.afterReset ∧ s.sched = Scheduler.afterReset ∧ s.pulser = Pulser.afterReset ∧
    s.tracker = Tracker.afterReset ∧ s.judge = Judge.afterReset ∧ s.cover = Coverage.afterReset ∧
    s.pair = Pairing.afterReset ∧ s.link = Link.afterReset ∧ s.control.runEndPending = false

/-- The transmitter's state and its queue agree (Table 8-7): IDLE on an empty queue, the others but SILENCED on a queue
that holds a frame. -/
def Link.txAgrees (l : Link) : Prop :=
  match l.tx with
  | .idle => l.txQueue = []
  | .waiting => l.txQueue ≠ []
  | .sending => l.txQueue ≠ []
  | .backedOff => l.txQueue ≠ []
  | .silenced => True

/-- A listening shot is in flight. -/
def SchedState.listens : SchedState → Bool
  | .listening _ => true
  | .off => false
  | .settling => false
  | .free => false
  | .recovering _ => false

/-- The element-by-element part of the scheduler's state stays in its ranges: skip counts to 255, on-grid runs to 8
(Table 2-2). -/
def State.schedInRange (s : State) : Prop :=
  ∀ e : Element, (s.sched.element.get e).skipCount ≤ 255 ∧ (s.sched.element.get e).onGrid ≤ 8 ∧
    s.pulser.badFires.get e ≤ 3

/-! ## Notices, as the statements name them -/

/-- The frame is a STATUS page 0 that shows the given station state (Tables 8-5 and 10-10). -/
def Frame.showsState (f : Frame) (st : StationState) : Prop :=
  f.kind = Kind.status ∧ f.payload.length = 14 ∧ byteAt f.payload 0 = 0 ∧
    (byteAt f.payload 1).extractLsb' 4 4 = (stationCode st).setWidth 4

/-- The frame is the own ANNOUNCE of a station whose station control stands at `c`, with the given fresh mark: state,
reset cause, rail, run number, image id and enable mask as they stand, and for each element the key and the sense of its
section when it is in the configured mask, 0 and NORMAL when it is not (Table 10-8, R119, R164, R167). -/
def Frame.announces (f : Frame) (c : Control) (fresh : Bool) : Prop :=
  let a := decodeAnnounce f.payload
  f.kind = Kind.announce ∧ f.source = c.address ∧ f.payload.length = 12 ∧
  a.fresh = fresh ∧ a.state = stationCode c.state ∧ a.cause = causeCode c.cause ∧ a.rail = railBit c.rail ∧
  a.runNumber = c.runNumber ∧ a.imageId = c.imageId ∧
  ∀ e : Element,
    let part := (c.config.getD Configuration.blank).element.get e
    a.mask.getLsbD e.val = c.enableMask.get e ∧
    (a.descriptors.get e).extractLsb' 2 4 = (if c.configuredMask.get e then BitVec.ofNat 4 part.key else 0) ∧
    (a.descriptors.get e).extractLsb' 0 2 =
      if c.configuredMask.get e then if 0 < part.sine then 1 else if part.sine < 0 then 2 else 0 else 0

/-- The frame is the FAULT notice of a fault record, of a station of the given address (Table 10-9, R172). -/
def Frame.reports (f : Frame) (address : BitVec 4) (r : FaultRecord) : Prop :=
  let g := decodeFault f.payload
  f.kind = Kind.fault ∧ f.source = address ∧ f.payload.length = 9 ∧
  g.kind = faultCode r.kind ∧ g.arg = r.arg ∧ g.hasPosition = r.position.isSome ∧
  g.x = BitVec.ofInt 32 (r.position.getD 0) ∧ g.index = BitVec.ofNat 16 r.index ∧ g.runNumber = r.runNumber

/-- The frame is the INDICATION notice of an own indication in a pairing state, of a station of the given address (Table
10-4, R129). -/
def Frame.indicates (f : Frame) (address : BitVec 4) (i : Indication) (p : PairState) : Prop :=
  let d := decodeIndication f.payload
  f.kind = Kind.indication ∧ f.source = address ∧ f.payload.length = 15 ∧
  d.sequence = BitVec.ofNat 16 i.sequence ∧ d.element = BitVec.ofNat 3 i.element.val ∧ d.rail = railBit i.rail ∧
  d.key = BitVec.ofNat 4 i.key ∧ d.sense = senseCode i.sense ∧ d.x = BitVec.ofInt 32 i.x ∧
  (match i.body with
   | .echo depth zone peak saturated length =>
     d.bwl = false ∧ d.size = BitVec.ofNat 16 depth ∧ d.zone = depthZoneCode zone ∧ d.peak = BitVec.ofNat 8 peak ∧
       d.saturated = saturated ∧ d.length = BitVec.ofNat 8 length
   | .bwl extent =>
     d.bwl = true ∧ d.size = BitVec.ofNat 16 extent ∧ d.zone = 0 ∧ d.peak = 0 ∧ d.saturated = false ∧ d.length = 0) ∧
  match p with
  | .first => d.state = 0 ∧ d.refAddress = 0 ∧ d.refSequence = 0
  | .confirmed a q => d.state = 1 ∧ d.refAddress = a ∧ d.refSequence = BitVec.ofNat 16 q
  | .sole => d.state = 2 ∧ d.refAddress = 0 ∧ d.refSequence = 0
  | .late a q => d.state = 3 ∧ d.refAddress = a ∧ d.refSequence = BitVec.ofNat 16 q

/-- The frame is the SPAN notice, queued in state `s`, of a stretch of `length` µm in which element `e` had the gap
travel `gap e`: the next span index, the current car position as end X, and the tested percentages, 0 outside the
run's mask (Table 10-7, R107, R113). -/
def Frame.showsSpan (f : Frame) (s : State) (length : Nat) (gap : Element → Nat) : Prop :=
  let d := decodeSpan f.payload
  f.kind = Kind.span ∧ f.source = s.control.address ∧ f.payload.length = 14 ∧
  d.index = BitVec.ofNat 16 (min (s.cover.spanIndex + 1) 65535) ∧ d.endX = BitVec.ofInt 32 s.currentX ∧
  ∀ e : Element, d.tested.get e =
    if s.cover.runMask.get e then BitVec.ofNat 8 ((length - gap e) * 100 / length) else 0

/-! ## GAP notices of one event (R103 to R105) -/

/-- What one event does to an element's gap: whether it closes it, and its start X; nothing when the gap neither opens
nor closes. -/
abbrev GapChanges := Element → Option (Bool × Int)

/-- The GAP notices of one event, of one cause code, at car position `x`: one for each kind and start X among the
changes, in the order of the lowest element each covers, each with the elements whose change it is and with `x` as the
end X of a CLOSE; an OPEN carries none (Table 10-6, R105). -/
def gapNotices (address : BitVec 4) (cause : BitVec 3) (x : Int) (change : GapChanges) (gaps : List Frame) : Prop :=
  let keys := (elements.filterMap change).eraseDups
  gaps.length = keys.length ∧
  ∀ (k : Nat) (f : Frame) (close : Bool) (startX : Int), gaps[k]? = some f → keys[k]? = some (close, startX) →
    let d := decodeGap f.payload
    f.kind = Kind.gap ∧ f.source = address ∧ f.payload.length = 11 ∧
    d.close = close ∧ d.cause = cause ∧ d.startX = BitVec.ofInt 32 startX ∧
    d.endX = (if close then BitVec.ofInt 32 x else 0) ∧
    ∀ e : Element, d.mask.getLsbD e.val = decide (change e = some (close, startX))

/-- The change of a gap whose cause set goes from `before` to `after` at car position `x`, its start until then being
`start` (R103, R104). -/
def gapChange (x : Int) (start : Option Int) (before after : Causes) : Option (Bool × Int) :=
  if !before.nonempty && after.nonempty then some (false, x)
  else if before.nonempty && !after.nonempty then some (true, start.getD x)
  else none

/-- The gap start after that change: the present position when it opens, absent when it closes (R103, R104). -/
def gapStartAfter (x : Int) (start : Option Int) (before after : Causes) : Option Int :=
  if !before.nonempty && after.nonempty then some x
  else if before.nonempty && !after.nonempty then none
  else start

/-- The GAP notices of a cause put into every enabled element's set by one event at the current car position (R102,
R103, R105). -/
def State.opensGaps (s : State) (cause : BitVec 3) (gaps : List Frame) : Prop :=
  gapNotices s.control.address cause s.currentX
    (fun e =>
      if s.cover.accounting = .active ∧ s.control.enableMask.get e = true ∧
          (s.cover.element.get e).causes.nonempty = false then
        some (false, s.currentX)
      else none) gaps

/-- An element's cause set without LIFTED. -/
def Causes.lowered (c : Causes) : Causes := { c with lifted := false }

/-- Every element's account in an active coverage account once the cause LIFTED has left: its gap start is absent when
LIFTED was its last cause, and nothing else of it differs (R104, R111). -/
def Coverage.lowered (c : Coverage) : Coverage :=
  if c.accounting = .active then
    { c with element := Eight.ofFn fun e =>
        let d := c.element.get e
        { d with
          causes := d.causes.lowered
          gapStart := if d.causes.lifted = true ∧ d.causes.lowered.nonempty = false then none else d.gapStart } }
  else c

/-- The GAP notices of the cause LIFTED leaving every element: a CLOSE of those that have no other cause (R104, R105,
R111). -/
def State.closesLifts (s : State) (gaps : List Frame) : Prop :=
  gapNotices s.control.address 1 s.currentX
    (fun e =>
      let d := s.cover.element.get e
      if s.cover.accounting = .active ∧ d.causes.lifted = true ∧ d.causes.lowered.nonempty = false then
        some (true, d.gapStart.getD s.currentX)
      else none) gaps

/-! ## The transmit queue, as the statements name it -/

/-- `n` more notices fit in the transmit queue (R148). -/
def State.hasRoomFor (s : State) (n : Nat) : Prop := s.link.txQueue.length + n ≤ Config.txCapacity

/-- The transmitter's state once a frame has come into its queue: an IDLE one starts at once on a line that is idle
with no pulse on it, and waits otherwise; every other, and that of an inactive link, stays as it is (R141, R142). -/
def Link.txOnQueueing (l : Link) : TxState :=
  if l.tx ≠ .idle ∨ l.rx = .inactive then l.tx
  else if l.rx = .idle ∧ l.pulse = none then .sending
  else .waiting

/-- The link controller once the notices `new` have been queued at the tail, in this order (R142, R148). -/
def Link.queueing (l : Link) (new : List Frame) : Link :=
  { l with txQueue := l.txQueue ++ new, tx := if new = [] then l.tx else l.txOnQueueing }

/-- What a notice that finds 24 frames queued leaves, `counted` being the drop counters with it: nothing queued, the
TXQ_FULL mark set, and, when the mark was clear, a TXQ_FULL record (or, in a full fault file, its overflow mark) whose
own notice is counted among the other drops; a fault file already marked overflowed takes no record and queues no
notice (R148, R149, R172, R173). -/
def State.dropping (s : State) (counted : Drops) : State :=
  let file := s.control.faults
  let begins := !s.control.episodes.txqFull && !file.overflow
  { s with
    link := { s.link with
      drops := if begins then { counted with other := min (counted.other + 1) 65535 } else counted }
    control := { s.control with
      episodes := { s.control.episodes with txqFull := true }
      faults :=
        if !begins then file
        else if 8 ≤ file.records.length then { file with overflow := true }
        else { file with records := file.records ++
          [{ kind := .txqFull, arg := 0, position := if s.control.state.inRun then some s.currentX else none,
             runNumber := s.control.runNumber, index := min (file.firstIndex + file.records.length) 65535 }] } } }

/-! ## Matching indications, as the statements name them -/

/-- The senses of two complementary indications: FORWARD and BACKWARD, in either order, or both NORMAL (R116). -/
def Sense.completes (a b : Sense) : Prop :=
  (a = .forward ∧ b = .backward) ∨ (a = .backward ∧ b = .forward) ∨ (a = .normal ∧ b = .normal)

/-- An own indication and a peer's notice match: the same rail, the same key, which is not 0, the same class,
complementary senses, X within the pair window and, of class ECHO, depth within the depth window (R116, R117). -/
def Indication.matched (c : StationSection) (i : Indication) (n : PeerNotice) : Prop :=
  i.rail = n.rail ∧ i.key = n.key ∧ i.key ≠ 0 ∧ i.sense.completes n.sense ∧ (i.x - n.x).natAbs ≤ c.pairWindow ∧
  match i.body, n.depth with
  | .echo depth _ _ _ _, some other => ((depth : Int) - (other : Int)).natAbs ≤ c.depthWindow
  | .bwl _, none => True
  | .echo _ _ _ _ _, none => False
  | .bwl _, some _ => False

/-- A peer's notice has something to wait for: an own enabled element of its key, which is not 0, on its rail, with the
complementary sense and, for class BWL, with gate B (R116, R133). -/
def State.awaits (s : State) (n : PeerNotice) : Prop :=
  n.rail = s.control.rail ∧ n.key ≠ 0 ∧ ∃ e : Element, s.control.enableMask.get e = true ∧ n.key = (s.elem e).key ∧
    n.sense.completes (if 0 < (s.elem e).sine then .forward else if (s.elem e).sine < 0 then .backward else .normal) ∧
    (n.depth = none → (s.elem e).bEnable = 1)

/-! ## A shot, as the statements name it -/

/-- No enabled element is due at a travel (R20). -/
def State.nothingDue (s : State) (travel : Nat) : Prop :=
  ∀ e : Element, s.control.enableMask.get e = true → travel < (s.sched.element.get e).nextDue

/-- The elements of a shot whose bad-fire count the fire brings to three: their peak is outside the acceptance window
and their count stands at two (R35, R36). -/
def State.thirdBad (s : State) (peaks : Eight Nat) (taken : List Element) (e : Element) : Bool :=
  taken.contains e && s.pulser.badFires.get e == 2 && !decide (500000 ≤ peaks.get e ∧ peaks.get e ≤ 5000000)

/-- What a fire of the elements `taken` does to the scheduler, the pulsers, the mask and the chain tracker, by the
state before it: the shot in flight with its latched travel, fine position, listening time and bad-fire marks; the
next-due updates and bad-fire counts of the fired elements and of no others; the enable mask without the elements at
their third bad fire; and the in-flight set, with the chains closed that are past their gap or of an element disabled,
and those the same event closes besides, each of which ends a CHAIN_FULL episode (R22 to R24, R35, R36, R60, R68, R72,
R170). -/
def State.shoots (s : State) (peaks : Eight Nat) (taken : List Element) (besides : Chain → Bool) (shot : Shot)
    (t : State) : Prop :=
  t.sched.state = .listening shot ∧ t.pulser.hv = .ready ∧
  shot.set = setOf taken ∧ shot.travel = s.odo.travel ∧ shot.pos = s.odo.pos ∧
  (∀ e ∈ taken, (s.elem e).window ≤ shot.listenLeft) ∧
  (∃ e ∈ taken, (s.elem e).window = shot.listenLeft ∨ shot.listenLeft = 0) ∧
  (∀ e : Element, shot.badFired.get e = true ↔
    (e ∈ taken ∧ ¬ (500000 ≤ peaks.get e ∧ peaks.get e ≤ 5000000))) ∧
  (∀ e ∈ taken,
    t.sched.element.get e = fireElement s.odo.travel (s.elem e).pitch (s.sched.element.get e) ∧
    t.pulser.badFires.get e =
      if 500000 ≤ peaks.get e ∧ peaks.get e ≤ 5000000 then 0 else min (s.pulser.badFires.get e + 1) 3) ∧
  (∀ e : Element, e ∉ taken →
    t.sched.element.get e = s.sched.element.get e ∧ t.pulser.badFires.get e = s.pulser.badFires.get e) ∧
  (∀ e : Element, t.control.enableMask.get e = (s.control.enableMask.get e && !s.thirdBad peaks taken e)) ∧
  t.tracker = { s.tracker with
    inFlight := some shot.set
    chains := s.tracker.chains.filter fun c =>
      !(besides c || s.thirdBad peaks taken c.element || (taken.contains c.element &&
        decide (1000 * (s.elem c.element).chainGap < s.odo.travel - c.lastTravel))) } ∧
  t.control.episodes.chainFull = (s.control.episodes.chainFull && decide (t.tracker.chains = s.tracker.chains))

/-- An element's cause set once the requests of R24 of a fire have been worked: UNDERSAMPLED as its mark when the fire
changed the mark, and as it was when not. -/
def State.sampledCauses (s t : State) (e : Element) : Causes :=
  let c := (s.cover.element.get e).causes
  if (t.sched.element.get e).undersampled = (s.sched.element.get e).undersampled then c
  else { c with undersampled := (t.sched.element.get e).undersampled }

/-- What the fire does to the gaps of an active account at the current car position: every undersampled mark that
changed is carried into its element's set, and then an element at its third bad fire takes the cause PULSER and loses
its coupling run and its loss record; gaps open and close with it, and nothing else but the gap travel differs. An
idle account stands (R24, R36, R97, R101 to R104, R110, R170). -/
def State.firesInto (s : State) (third : Element → Bool) (t : State) : Prop :=
  (s.cover.accounting = .idle → t.cover = s.cover) ∧
  (s.cover.accounting = .active → ∀ e : Element,
    let c := s.cover.element.get e
    let sampled := s.sampledCauses t e
    let causes := if third e then { sampled with pulser := true } else sampled
    t.cover.element.get e = { c with
      causes := causes
      gapStart := gapStartAfter s.currentX (gapStartAfter s.currentX c.gapStart c.causes sampled) sampled causes
      run := if third e then none else c.run
      backWall := if third e then .present else c.backWall
      gapTravel := (t.cover.element.get e).gapTravel })

/-- What the fire files and queues, when all of it fits: for each element at its third bad fire, in increasing number,
a PULSER record with the element, the current car position and the run number; and, among whatever else the event
queues, first the GAP notices of the marks that changed, then each such element's FAULT notice with its GAP OPEN of
cause PULSER, if its gap opens (R24, R36, R102, R103, R105, R170, R172). -/
def State.firesNotices (s : State) (third : List Element) (t : State) : Prop :=
  let file := s.control.faults
  let record : Nat → Element → FaultRecord := fun k e =>
    { kind := .pulser, arg := BitVec.ofNat 4 e.val, position := some s.currentX, runNumber := s.control.runNumber,
      index := min (file.firstIndex + file.records.length + k) 65535 }
  let opens : Element → Bool := fun e =>
    decide (s.cover.accounting = .active) && !(s.sampledCauses t e).nonempty
  let alone : Element → GapChanges := fun e i => if i = e then some (false, s.currentX) else none
  t.control.faults = { file with records := file.records ++ third.mapIdx record } ∧
  ∃ (new gaps : List Frame) (fault gap : Element → Frame), t.link = s.link.queueing new ∧
    new.filter (fun f => f.kind == Kind.gap || f.kind == Kind.fault) =
      gaps ++ third.flatMap (fun e => fault e :: if opens e then [gap e] else []) ∧
    gapNotices s.control.address 3 s.currentX
      (fun e =>
        if s.cover.accounting = .active then
          gapChange s.currentX (s.cover.element.get e).gapStart (s.cover.element.get e).causes (s.sampledCauses t e)
        else none) gaps ∧
    (∀ (k : Nat) (e : Element), third[k]? = some e → (fault e).reports s.control.address (record k e)) ∧
    ∀ e ∈ third, gapNotices s.control.address 4 s.currentX (alone e) [gap e]

/-- What a fire of the elements `taken` leaves, by the state before it: the shot (State.shoots), the gap causes and
gap starts (State.firesInto) and, with places for every notice that the event can bring and for every record, the
notices and records (State.firesNotices). -/
def State.fires (s : State) (peaks : Eight Nat) (taken : List Element) (besides : Chain → Bool) (shot : Shot)
    (t : State) : Prop :=
  let third := elements.filter fun e => s.thirdBad peaks taken e
  s.shoots peaks taken besides shot t ∧ s.firesInto (s.thirdBad peaks taken) t ∧
  (s.hasRoomFor (s.tracker.chains.length + 3 * taken.length + 2) →
    third = [] ∨ (s.control.faults.overflow = false ∧ s.control.faults.records.length + third.length ≤ 8) →
    s.firesNotices third t)

/-! ## Frames of other participants -/

/-- The frame `f` waits at the head of the receive queue, before `rest`, it stands for command `c`, and its block can
take it (R153). -/
def State.waits (s : State) (f : Frame) (rest : List Frame) (c : Instr) : Prop :=
  s.link.rxQueue = f :: rest ∧ frameCommand f = c ∧ s.canTake f = true

/-- What only a reset and the end of STARTING set (R159, R163, R164): address, rail, reset cause, configuration,
configured mask, fault offset and image id. -/
def State.sameSetup (s t : State) : Prop :=
  t.control.address = s.control.address ∧ t.control.rail = s.control.rail ∧ t.control.cause = s.control.cause ∧
  t.control.config = s.control.config ∧ t.control.configuredMask = s.control.configuredMask ∧
  t.control.faultOffset = s.control.faultOffset ∧ t.control.imageId = s.control.imageId

/-- The sensor lines, the loader, the conditions of the hold, the queue of commands and the receiver stand as they
stood. -/
def State.sameOutside (s t : State) : Prop :=
  t.pins = s.pins ∧ t.loader = s.loader ∧ t.hold = s.hold ∧ t.pending = s.pending ∧ t.link.rx = s.link.rx ∧
  t.link.rxQueue = s.link.rxQueue ∧ t.link.counts = s.link.counts

/-- The command is one of those that reset or start the part. -/
def startsPart : Instr → Bool
  | .reset _ _ => true
  | .startingEnd _ => true
  | .heldInReset _ => true
  | .encoderLineChange _ _ => false
  | .encoderLevelAccepted _ _ => false
  | .stillness => false
  | .liftLineChange _ => false
  | .liftRecognised _ => false
  | .listeningEnd _ => false
  | .recoveryEnd _ => false
  | .settleComplete _ => false
  | .run _ _ _ _ => false
  | .stop _ _ => false
  | .runEnd => false
  | .halt _ _ => false
  | .zone _ _ _ _ _ => false
  | .flush _ _ _ _ => false
  | .clear _ _ => false
  | .query _ _ _ => false
  | .announce _ _ => false
  | .indication _ _ => false
  | .gap _ _ => false
  | .span _ _ => false
  | .fault _ _ => false
  | .status _ _ => false
  | .unknownKind _ _ _ => false
  | .lineIdle _ => false
  | .frameEnd => false
  | .arbitrationLost => false
  | .transmitError _ => false
  | .haltSymbol _ => false
  | .stuckLine => false
  | .noisePulse _ => false
  | .formError _ => false
  | .leadMark _ => false
  | .bitReceived _ => false
  | .waitForIdleRestart _ => false

/-- A run is in progress: RUNNING, LIFTED or STILL (Table 9-2). -/
def State.inRun (s : State) : Prop := s.control.state.inRun = true

end Sys2Proof.Machine
end

