-- ==== Sys2Proof/WellFormed.lean ====
section
/-! DEFINITION. The operands the table's rows admit: the pulse lengths of Table 8-2, kind codes and payload lengths of
frames, traces no longer than the longest window and a serial memory no longer than 512 bytes. A command that is not
well formed still has a meaning: what the part makes of the pulse or the frame it is given. -/

namespace Sys2Proof

/-- Nanoseconds of a noise pulse (Table 8-2). -/
def noiseLength (ns : Nat) : Bool := ns < 500
/-- Nanoseconds of a pulse below the halt length that is no noise (Table 8-2). -/
def symbolLength (ns : Nat) : Bool := 500 ≤ ns && ns < 100000
/-- Nanoseconds of a bit's mark (Table 8-2). -/
def bitLength (ns : Nat) : Bool := 500 ≤ ns && ns < 5000
/-- Nanoseconds of a lead mark (Table 8-2). -/
def leadLength (ns : Nat) : Bool := 8000 ≤ ns && ns ≤ 12000
/-- Nanoseconds of a halt symbol (Table 8-2). -/
def haltLength (ns : Nat) : Bool := 100000 ≤ ns && ns ≤ 2000000
/-- Nanoseconds of a pulse whose release starts the wait for an idle line uncounted: one below the halt length in SEEKING
(Table 8-2), and one that has been taken as a stuck line (R147). -/
def restartLength (ns : Nat) : Bool := symbolLength ns || 2000000 < ns
/-- The row of a pulse admits its beginning, and its release at the lengths `ok` takes. -/
def pulseWellFormed (ok : Nat → Bool) : Pulse → Bool
  | .begins => true
  | .released ns => ok ns
/-- Nanoseconds of a pulse that is no bit and no halt symbol (R144). -/
def strangeLength (ns : Nat) : Bool := 5000 ≤ ns && ns < 100000

/-- What a sending transmitter hears in place of its bit is one of the cases of R144. -/
def heardWellFormed : Heard → Bool
  | .bit _ => true
  | .pulse ns => strangeLength ns
  | .nothing => true

/-- The command's operands are those its row of the table admits. -/
def Instr.wellFormed : Instr → Bool
  | .reset _ _ => true
  | .startingEnd memory => memory.length ≤ 512
  | .encoderLineChange _ _ => true
  | .encoderLevelAccepted _ _ => true
  | .stillness => true
  | .liftLineChange _ => true
  | .liftRecognised _ => true
  | .listeningEnd traces => traces.toList.all fun t => t.length ≤ 16383
  | .recoveryEnd _ => true
  | .settleComplete _ => true
  | .run _ _ _ _ => true
  | .stop _ _ => true
  | .runEnd => true
  | .halt _ _ => true
  | .zone _ _ _ _ _ => true
  | .flush _ _ _ _ => true
  | .clear _ _ => true
  | .query _ _ _ => true
  | .announce _ _ => true
  | .indication _ _ => true
  | .gap _ _ => true
  | .span _ _ => true
  | .fault _ _ => true
  | .status _ _ => true
  | .unknownKind _ kind payload => !Machine.knownKind kind && payload.length ≤ 15
  | .lineIdle _ => true
  | .frameEnd => true
  | .arbitrationLost => true
  | .transmitError heard => heardWellFormed heard
  | .haltSymbol pulse => pulseWellFormed haltLength pulse
  | .stuckLine => true
  | .noisePulse pulse => pulseWellFormed noiseLength pulse
  | .formError pulse => pulseWellFormed symbolLength pulse
  | .leadMark pulse => pulseWellFormed leadLength pulse
  | .bitReceived pulse => pulseWellFormed bitLength pulse
  | .waitForIdleRestart pulse => pulseWellFormed restartLength pulse
  | .heldInReset _ => true

end Sys2Proof
end

