-- ==== Sys2Proof/Certificates/Slice0/Obligations.lean ====
section
/-! DEFINITION. The statements for the provers: what each command does and leaves alone, what a step keeps, and that
frames and bits are read as they are written. -/

open Sys2Proof Sys2Proof.Machine

/-! ## The step and the queue -/

/-- A step takes the command at the front of the queue and works it with the queue's rest. With no command waiting,
the part goes on by itself (the model's choice, assumption log 7). What is due and needs nothing from outside happens,
in this order: a pending run end with the scheduler OFF; the dispatch of the receive queue's head, when its block can
take it; STILLNESS, when the time since the last edge has reached the still time; STUCK_LINE, when the pulse on the
line is past 2 ms; FRAME_END, after 12 µs of recessive line in FRAME; LINE_IDLE, after 40 µs of recessive line, when
the receiver seeks it or a frame waits. With none of these due, nothing changes when an encoder filter has run for its
filter time, the lift filter for its own, a listening or a recovery has run out, or the high voltage has settled for 2
ms: each waits for the command that brings its operands. Otherwise one tick of 20 ns passes on every timer, on the
pulse on the line and, with no pulse on it and no bit being driven, on the recessive time (R3, R10, R12, R26 to R28,
R136 to R138, R142, R147, R153, R168). -/
def Obligations.StepRunsFrontCommandElseDueEvent : Prop :=
  (∀ (c : Instr) (rest : List Instr) (s : State), s.pending = c :: rest →
    step s = exec c { s with pending := rest }) ∧
  ∀ s : State, s.pending = [] →
    let recessive : Nat → Prop := fun ticks => s.link.pulse = none ∧ ticks ≤ s.link.quiet
    let unheard : Bool := decide (s.link.tx = .sending) &&
      match s.link.rx with
      | .idle => true
      | .frame bits none => decide (bits.length < s.link.ownBits.length)
      | _ => false
    let ends : Prop := s.control.runEndPending = true ∧ s.sched.state = .off
    let takes : Frame → Prop := fun f =>
      s.link.rxQueue.head? = some f ∧ (f.toControl = true → s.control.runEndPending = false)
    let still : Prop := s.odo.active = true ∧ s.odo.stillMark = false ∧
      5000000 * s.station.stillTime ≤ s.odo.sinceEdge
    let stuck : Prop := s.link.rx ≠ .inactive ∧ s.link.tx ≠ .silenced ∧ ∃ held, s.link.pulse = some held ∧ 100001 ≤ held
    let ended : Prop := (∃ bits cut, s.link.rx = .frame bits cut) ∧ recessive 600 ∧ unheard = false
    let idles : Prop := recessive 2000 ∧ (s.link.rx = .seeking ∨ (s.link.rx = .idle ∧
      (s.link.tx = .waiting ∨ s.link.tx = .backedOff ∨ s.link.tx = .silenced)))
    let waits : Prop :=
      (∃ n, (s.odo.timingA = some n ∨ s.odo.timingB = some n) ∧ 5 * s.station.encoderFilter ≤ n) ∨
      (∃ n, s.odo.liftHeld = some n ∧ 50000 * s.station.liftFilter ≤ n) ∨
      (∃ shot, s.sched.state = .listening shot ∧ shot.listenLeft = 0) ∨ s.sched.state = .recovering 0 ∨
      ∃ n, s.pulser.hv = .settling n ∧ 100000 ≤ n
    (ends → step s = exec .runEnd s) ∧
    (¬ ends → ∀ f, takes f → step s = exec (frameCommand f) s) ∧
    (¬ ends → (∀ f, ¬ takes f) →
      (still → step s = exec .stillness s) ∧
      (¬ still →
        (stuck → step s = exec .stuckLine s) ∧
        (¬ stuck → ended → step s = exec .frameEnd s) ∧
        (¬ stuck → ¬ ended → idles → step s = exec (.lineIdle false) s) ∧
        (¬ stuck → ¬ ended → ¬ idles →
          (waits → step s = .next s) ∧
          (¬ waits → step s = .next
            { s with
              odo := { s.odo with
                timingA := s.odo.timingA.map (· + 1)
                timingB := s.odo.timingB.map (· + 1)
                sinceEdge :=
                  if s.odo.active then min (s.odo.sinceEdge + 1) (5000000 * s.station.stillTime) else s.odo.sinceEdge
                liftHeld := s.odo.liftHeld.map (· + 1) }
              sched := { s.sched with state :=
                match s.sched.state with
                | .listening shot => .listening { shot with listenLeft := shot.listenLeft - 1 }
                | .recovering left => .recovering (left - 1)
                | other => other }
              pulser := { s.pulser with hv :=
                match s.pulser.hv with
                | .settling n => .settling (n + 1)
                | other => other }
              link :=
                if s.link.rx = .inactive then s.link
                else
                  match s.link.pulse with
                  | some held => { s.link with
                      pulse := some (min (held + 1) 100001)
                      rx :=
                        match s.link.rx with
                        | .frame bits cut =>
                          if held + 1 < 250 then .frame bits cut
                          else .frame [] (if s.link.tx = .sending then some 0 else cut)
                        | other => other }
                  | none => { s.link with
                      quiet := if unheard then s.link.quiet else min (s.link.quiet + 1) 2000 } }))))

/-! ## Reset and start-up -/

/-- What every block of the part holds right after reset (the columns "After any reset" of Tables 1-1, 2-2, 4-1, 5-1,
6-1 and 7-2, section 8.1, and Table 9-1 after POWER). The cause POWER and the empty queue of commands are the model's
choice (assumption log 2). -/
def Obligations.ResetStateMatchesTables : Prop :=
  let s := State.reset
  (s.odo.active = false ∧ s.odo.pos = ⟨0, 0⟩ ∧ s.odo.travel = 0 ∧ s.odo.direction = .forward ∧
    s.odo.extreme = ⟨0, 0⟩ ∧ s.odo.sinceEdge = 0 ∧ s.odo.stillMark = false ∧ s.odo.lift = .lowered) ∧
  (s.sched.state = .off ∧ s.pulser.hv = .off ∧ ∀ e : Element,
    s.sched.element.get e = ⟨0, 0, 0, false⟩ ∧ s.pulser.badFires.get e = 0) ∧
  (s.tracker = { chains := [], nextNumber := 1, inFlight := none, discarded := 0, dropped := 0 }) ∧
  (s.judge.nextSeq = 1 ∧ (∀ i, (s.judge.zones.get i).enabled = false) ∧ s.judge.rejected = 0 ∧
    s.judge.suppressed = 0 ∧ s.judge.excess = 0) ∧
  (s.cover.accounting = .idle ∧ s.cover.spanIndex = 0 ∧ s.cover.spanStart = 0 ∧ s.cover.lastTravel = 0 ∧
    ∀ e : Element, (s.cover.element.get e).coupling = .coupled ∧ (s.cover.element.get e).run = none ∧
      (s.cover.element.get e).causes.nonempty = false ∧ (s.cover.element.get e).gapStart = none ∧
      (s.cover.element.get e).backWall = .present ∧ (s.cover.element.get e).gapTravel = 0) ∧
  (s.pair = { runMark := false, peers := [], notices := [], own := [], lost := 0 }) ∧
  (s.link.txQueue = [] ∧ s.link.rxQueue = [] ∧ s.link.tx = .idle ∧ s.link.rx = .inactive ∧
    s.link.counts = ⟨0, 0, 0, 0, 0, 0, 0, 0, 0, 0⟩ ∧ s.link.drops = ⟨0, 0, 0, 0⟩) ∧
  (s.control.state = .starting ∧ s.control.cause = .power ∧ s.control.config = none ∧
    s.control.configuredMask = noElements ∧ s.control.enableMask = noElements ∧ s.control.faultOffset = 0 ∧
    s.control.imageId = 0 ∧ s.control.runNumber = 0 ∧ s.control.runEndPending = false ∧
    s.control.faults = ⟨[], false, 0⟩ ∧ s.control.episodes = ⟨false, false, false⟩) ∧
  s.pending = []

/-- RESET: every block goes to its values after reset, the four address straps are read as a binary number with ADS0
its least significant bit and the rail strap as LEFT when low and RIGHT when high, the cause recorded is POWER, else
SUPPLY, else LINE of the conditions that arose, a LINE reset alone keeps the fault file, and the load begins (R157 to
R160; that a high address strap is a 1 is the model's reading, assumption log 26). The sensor lines, the free orders
taken and the commands waiting stand. -/
def Obligations.ResetClearsAllButLineFaults : Prop :=
  ∀ (cause : ResetCause) (straps : Straps) (s : State),
    let recorded : ResetCause :=
      if s.hold.power = true ∨ cause = .power then .power
      else if s.hold.supply = true ∨ cause = .supply then .supply
      else .line
    exec (.reset cause straps) s = .next
      { State.reset with
        control := { State.reset.control with
          address := BitVec.ofNat 4
            ((if straps.ads0 = .high then 1 else 0) + (if straps.ads1 = .high then 2 else 0) +
              (if straps.ads2 = .high then 4 else 0) + (if straps.ads3 = .high then 8 else 0))
          rail := if straps.rails = .high then .right else .left
          cause := recorded
          faults := if recorded = .line then s.control.faults else ⟨[], false, 0⟩ }
        pins := s.pins
        free := s.free
        pending := s.pending }

/-- HELD_IN_RESET: the part stands in reset: the condition is noted, the line is released, nothing loads, every block
holds its values after reset, and until the hold ends the address, the rail, the cause and the fault file stand (R157,
R18, R141; where the manual does not say when the fault file of a POWER or SUPPLY reset empties, the model empties it
at RESET, assumption log 12). -/
def Obligations.HeldInResetReleasesTheLine : Prop :=
  ∀ (cause : ResetCause) (s : State),
    exec (.heldInReset cause) s = .next
      { State.reset with
        control := { State.reset.control with
          address := s.control.address
          rail := s.control.rail
          cause := s.control.cause
          faults := s.control.faults }
        loader := { selected := false, sentBytes := [], image := [], clocks := 0 }
        hold :=
          { power := s.hold.power || cause == .power
            line := s.hold.line || cause == .line
            supply := s.hold.supply || cause == .supply }
        pins := s.pins
        free := s.free
        pending := s.pending }

/-- STARTING_END with a good image: the station enters READY with the configuration, the odometer takes the present line
levels and starts its lift filter, the link controller seeks idle line, and a fresh ANNOUNCE with every field as station
control then stands, and STATUS page 0, are queued (R1, R141, R163, R164). -/
def Obligations.GoodImageMakesReady : Prop :=
  ∀ (memory : List Byte) (id : BitVec 16) (config : Configuration) (s : State),
    s.control.state = .starting → s.hold = ⟨false, false, false⟩ → s.link = Link.afterReset →
    checkImage (loadedBytes memory) = .good id config →
    ∃ t ann status, exec (.startingEnd memory) s = .next t ∧
      t.control = { s.control with
        state := .ready, config := some config, configuredMask := usableMask config, faultOffset := 0, imageId := id } ∧
      t.odo = { s.odo with
        active := true, filteredA := s.pins.encA, filteredB := s.pins.encB, timingA := none, timingB := none,
        sinceEdge := 0, stillMark := false, liftLevel := s.pins.lift, liftHeld := some 0, lift := .lowered } ∧
      t.link = { Link.afterReset with rx := .seeking, tx := .waiting, txQueue := [ann, status] } ∧
      ann.announces t.control true ∧ status.showsState .ready ∧
      t.loader.selected = false ∧ t.loader.image.length = 504 ∧ t.loader.clocks = 4056 ∧
      t.sched = s.sched ∧ t.pulser = s.pulser ∧ t.tracker = s.tracker ∧ t.judge = s.judge ∧ t.cover = s.cover ∧
      t.pair = s.pair ∧ t.pins = s.pins ∧ t.hold = s.hold ∧ t.pending = s.pending

/-- STARTING_END with an image that is structurally bad or has a station field out of range: the station enters
UNCONFIGURED with the fault offset, loads nothing, keeps the odometer inactive, and queues a fresh ANNOUNCE with every
field as station control then stands, and STATUS page 0 (R161, R162, R164). -/
def Obligations.BadImageMakesUnconfigured : Prop :=
  ∀ (memory : List Byte) (s : State),
    s.control.state = .starting → s.hold = ⟨false, false, false⟩ → s.link = Link.afterReset →
    ∀ (id : BitVec 16) (offset : Nat),
      (checkImage (loadedBytes memory) = .structurallyBad ∧ id = 0 ∧ offset = 0) ∨
        checkImage (loadedBytes memory) = .stationBad id offset →
      ∃ t ann status, exec (.startingEnd memory) s = .next t ∧
        t.control = { s.control with state := .unconfigured, faultOffset := offset, imageId := id } ∧
        t.odo = s.odo ∧
        t.link = { Link.afterReset with rx := .seeking, tx := .waiting, txQueue := [ann, status] } ∧
        ann.announces t.control true ∧ status.showsState .unconfigured ∧
        t.sched = s.sched ∧ t.pulser = s.pulser ∧ t.tracker = s.tracker ∧ t.judge = s.judge ∧ t.cover = s.cover ∧
        t.pair = s.pair ∧ t.pins = s.pins ∧ t.hold = s.hold ∧ t.pending = s.pending

/-! ## Encoder, lift and stillness -/

/-- ENCODER_LINE_CHANGE and LIFT_LINE_CHANGE: a raw line that changes starts, abandons or restarts its own filter in an
active odometer; in an inactive one, or with no change, only the line itself is noted (R1, R3, R12). -/
def Obligations.LineChangesTimeTheFilters : Prop :=
  ∀ (line : EncoderLine) (level : Level) (s : State),
    (s.odo.active = true → s.pins.encoder line ≠ level →
      exec (.encoderLineChange line level) s = .next
        { s with
          pins := s.pins.setEncoder line level
          odo :=
            match line with
            | .a => { s.odo with timingA := if level = s.odo.filteredA then none else some 0 }
            | .b => { s.odo with timingB := if level = s.odo.filteredB then none else some 0 } }) ∧
    (s.odo.active = false ∨ s.pins.encoder line = level →
      exec (.encoderLineChange line level) s = .next { s with pins := s.pins.setEncoder line level }) ∧
    (s.odo.active = true → s.pins.lift ≠ level →
      exec (.liftLineChange level) s = .next
        { s with
          pins := { s.pins with lift := level }
          odo := { s.odo with liftLevel := level, liftHeld := some 0 } }) ∧
    (s.odo.active = false ∨ s.pins.lift = level →
      exec (.liftLineChange level) s = .next { s with pins := { s.pins with lift := level } })

/-- The decoder: Table 1-3's forward order, the invert flag exchanging the two senses, both lines moved being illegal
(R4). -/
def Obligations.DecoderFollowsForwardOrder : Prop :=
  let forward : List ((Level × Level) × (Level × Level)) :=
    [((.low, .low), (.high, .low)), ((.high, .low), (.high, .high)), ((.high, .high), (.low, .high)),
     ((.low, .high), (.low, .low))]
  ∀ a b a' b' : Level,
    decodeEdge false a b a' b' =
      (if ((a, b), (a', b')) ∈ forward then .forward
       else if ((a', b'), (a, b)) ∈ forward then .backward
       else if a = a' ∧ b = b' then .none
       else .illegal) ∧
    decodeEdge true a b a' b' =
      (if ((a, b), (a', b')) ∈ forward then .backward
       else if ((a', b'), (a, b)) ∈ forward then .forward
       else if a = a' ∧ b = b' then .none
       else .illegal)

/-- ENCODER_LEVEL_ACCEPTED with an edge. At the odometer, fine position moves by the edge pitch in the edge's sense
and saturates, travel grows by it, direction and extreme point are those after the edge (ReversalTakesTheHysteresis
says which), the time since the last edge restarts, the still mark clears and the completed filters stop; no other
block changes the odometer, and the lift filter, the lines, the setup, the hold, the receiver and the queue of
commands stand. The other blocks take the travel advance: LIVE peers unheard for more than the silence distance become
SILENT, and in a run notices past the horizon leave the list; a STILL station with the still mark set becomes RUNNING,
and its OFF scheduler becomes FREE on a READY high voltage and otherwise settles it. A freed chain entry clears the
CHAIN_FULL mark. At an edge at which no shot can form (only a FREE scheduler of a RUNNING station with READY high
voltage forms one, of elements due) the scheduler and the pulsers do nothing else, a reversal closes every chain and
any other edge closes the chains past their gap whose element is not in flight, each judged in creation order; the
coverage account takes the advance (SpansEndAtTheirLength says how); and when no chain closes, the pairing lists lose
exactly what has expired, counted, and what is queued is STATUS page 0 of a station that starts to move and the SPAN
notice of an advance that reaches the span end in an active account, with the car position after the edge as its end
X, in either order. At an edge at which a shot forms, and no shot is noted in flight, it fires at the new travel and
fine position (State.fires says what it leaves), and the chains that the advance closes close besides those of the
fire (R3, R5, R7 to R9, R11, R20, R22, R30, R60, R68 to R71, R106, R107, R120, R125, R148, R165, R166, R174). That the
requests of one fire are told together is the model's reading (assumption log 18). -/
def Obligations.AcceptedEdgeMovesTheOdometer : Prop :=
  ∀ (lines : AcceptedLines) (peaks : Eight Nat) (s : State), s.odo.active = true →
    let o := s.odo.accept lines s.pins.encA s.pins.encB
    let kind := decodeEdge s.station.encoderInvert s.odo.filteredA s.odo.filteredB o.filteredA o.filteredB
    kind = .forward ∨ kind = .backward →
    let d : Int := if kind = .forward then s.station.edgePitch else -s.station.edgePitch
    ∃ t, exec (.encoderLevelAccepted lines peaks) s = .next t ∧
      t.odo.pos.micros =
        max (1000 * Config.positionMin) (min (1000 * Config.positionMax + 999) (s.odo.pos.micros + d)) ∧
      t.odo.pos.um ≤ 999 ∧
      t.odo.travel = min (s.odo.travel + s.station.edgePitch) Config.travelMax ∧
      t.odo.direction = (s.odo.edge s.station.edgePitch s.station.hysteresis d).direction ∧
      t.odo.extreme = (s.odo.edge s.station.edgePitch s.station.hysteresis d).extreme ∧
      t.odo = { o with
        pos := t.odo.pos, travel := t.odo.travel, direction := t.odo.direction, extreme := t.odo.extreme,
        sinceEdge := 0, stillMark := false } ∧
      s.sameSetup t ∧ s.sameOutside t ∧
      (let starts : Bool := s.odo.stillMark && s.control.state == .still
       let moved : State := { s with odo := t.odo, control := { s.control with
         state := if starts then .running else s.control.state } }
       let closes : Chain → Bool := fun c =>
         decide (t.odo.direction ≠ s.odo.direction) ||
           ((s.tracker.inFlight.all fun flying => !flying.get c.element) &&
             decide (1000 * (s.elem c.element).chainGap < t.odo.travel - c.lastTravel))
       let peers := s.pair.peers.map fun q =>
         if q.live = true ∧ 1000000 * s.station.silence < t.odo.travel - q.lastHeard then { q with live := false } else q
       let kept := s.pair.notices.filter fun n => decide (t.odo.travel - n.arrival ≤ 1000000 * s.station.horizon)
       let free : Prop := moved.control.state = .running ∧ s.pulser.hv = .ready ∧
         (s.sched.state = .free ∨ (s.sched.state = .off ∧ starts = true))
       t.pair.peers = peers ∧ t.pair.runMark = s.pair.runMark ∧
       (∀ n ∈ t.pair.notices, n ∈ if s.pair.runMark then kept else s.pair.notices) ∧
       t.control.state = moved.control.state ∧
       t.control.episodes.chainFull =
         (s.control.episodes.chainFull && decide (t.tracker.chains = s.tracker.chains)) ∧
       ((free → s.nothingDue t.odo.travel) →
         t.sched = { s.sched with state :=
           if starts = true ∧ s.sched.state = .off then if s.pulser.hv = .ready then .free else .settling
           else s.sched.state } ∧
         t.pulser = { s.pulser with hv :=
           if starts = true ∧ s.sched.state = .off ∧ s.pulser.hv = .off then .settling 0 else s.pulser.hv } ∧
         t.tracker = { s.tracker with chains := s.tracker.chains.filter fun c => !closes c } ∧
         t.judge = ((s.tracker.chains.filter closes).foldl (fun u c => u.judgeChain c) s).judge ∧
         t.cover = (s.coverAdvance t.odo.travel).cover ∧
         ((∀ c ∈ s.tracker.chains, closes c = false) →
           t.pair =
             (if s.pair.runMark then
               { s.pair with
                 peers := peers
                 notices := kept
                 own := s.pair.own.filter fun o => decide (t.odo.travel - o.travel ≤ 1000000 * s.station.horizon)
                 lost := min (s.pair.lost + (s.pair.notices.length - kept.length)) 65535 }
              else { s.pair with peers := peers }) ∧
           (s.hasRoomFor 2 →
             let length := 1000000 * s.station.spanLength
             let spanEnd := s.cover.spanStart + length
             ∃ status span, status.showsState .running ∧
               span.showsSpan moved length (fun e => (s.cover.element.get e).gapTravel +
                 if (s.cover.element.get e).causes.nonempty then spanEnd - s.cover.lastTravel else 0) ∧
               (let told := if starts then [status] else []
                let spans := if s.cover.accounting = .active ∧ spanEnd ≤ t.odo.travel then [span] else []
                t.control = moved.control ∧
                  (t.link = s.link.queueing (told ++ spans) ∨ t.link = s.link.queueing (spans ++ told)))))) ∧
       (free → s.tracker.inFlight = none →
         ∀ e0 : Element, s.control.enableMask.get e0 = true → (s.sched.element.get e0).nextDue ≤ t.odo.travel →
           let taken := takeShot s.station moved.dueOrder
           taken ≠ [] ∧ ∃ shot, moved.fires peaks taken closes shot t))

/-- Direction, extreme point and reversal at an edge: while FORWARD the extreme point is the furthest fine position
reached, and an edge that comes back from it by the hysteresis or more turns the direction to BACKWARD and puts the
extreme point at the new fine position; while BACKWARD the mirror image (R8, R9). -/
def Obligations.ReversalTakesTheHysteresis : Prop :=
  ∀ (pitch h : Nat) (d : Int) (o : Odometer),
    let p := o.pos.move d
    let n := o.edge pitch h d
    (o.direction = .forward →
      (1000 * (h : Int) ≤ max o.extreme.micros p.micros - p.micros → n.direction = .backward ∧ n.extreme = p) ∧
      (max o.extreme.micros p.micros - p.micros < 1000 * (h : Int) →
        n.direction = .forward ∧ n.extreme = if o.extreme.micros < p.micros then p else o.extreme)) ∧
    (o.direction = .backward →
      (1000 * (h : Int) ≤ p.micros - min o.extreme.micros p.micros → n.direction = .forward ∧ n.extreme = p) ∧
      (p.micros - min o.extreme.micros p.micros < 1000 * (h : Int) →
        n.direction = .backward ∧ n.extreme = if p.micros < o.extreme.micros then p else o.extreme))

/-- ENCODER_LEVEL_ACCEPTED with both filtered lines moved: nothing of the odometer moves but the filters, no other block
hears of it, and an ENCODER fault is reported, by which: a file with the overflow mark set records nothing more; a file
with room takes the record, with the current car position in a run, and its FAULT notice is queued; a full file takes no
record, its overflow mark is set and an OVERFLOW notice with the index the record would have taken, and no position, is
queued; and with the transmit queue full the record stands, the notice is counted among the other drops, and a drop that
finds the TXQ_FULL mark clear sets it and files a TXQ_FULL record whose own notice is dropped too (R6, R148, R149, R172,
R173). -/
def Obligations.IllegalTransitionRecordsAFault : Prop :=
  ∀ (peaks : Eight Nat) (s : State), s.odo.active = true →
    s.odo.timingA.isSome = true → s.odo.timingB.isSome = true →
    s.pins.encA ≠ s.odo.filteredA → s.pins.encB ≠ s.odo.filteredB →
    let moved : State := { s with odo := { s.odo with
      filteredA := s.pins.encA, filteredB := s.pins.encB, timingA := none, timingB := none } }
    let file := s.control.faults
    let position := if s.control.state.inRun then some s.currentX else none
    let record : FaultRecord :=
      { kind := .encoder, arg := 0, position := position, runNumber := s.control.runNumber,
        index := min (file.firstIndex + file.records.length) 65535 }
    let recorded : FaultFile := { file with records := file.records ++ [record] }
    (file.overflow = true → exec (.encoderLevelAccepted .both peaks) s = .next moved) ∧
    (file.overflow = false → file.records.length < 8 → s.hasRoomFor 1 →
      ∃ f, f.reports s.control.address record ∧
        exec (.encoderLevelAccepted .both peaks) s = .next { moved with
          control := { s.control with faults := recorded }
          link := s.link.queueing [f] }) ∧
    (file.overflow = false → 8 ≤ file.records.length → s.hasRoomFor 1 →
      ∃ f, f.reports s.control.address { record with kind := .overflow, position := none } ∧
        exec (.encoderLevelAccepted .both peaks) s = .next { moved with
          control := { s.control with faults := { file with overflow := true } }
          link := s.link.queueing [f] }) ∧
    (file.overflow = false → file.records.length < 8 → 24 ≤ s.link.txQueue.length →
      s.control.episodes.txqFull = true →
      exec (.encoderLevelAccepted .both peaks) s = .next { moved with
        control := { s.control with faults := recorded }
        link := { s.link with drops := { s.link.drops with other := min (s.link.drops.other + 1) 65535 } } }) ∧
    (file.overflow = false → file.records.length < 7 → 24 ≤ s.link.txQueue.length →
      s.control.episodes.txqFull = false →
      exec (.encoderLevelAccepted .both peaks) s = .next { moved with
        control := { s.control with
          faults := { recorded with records := recorded.records ++
            [{ kind := .txqFull, arg := 0, position := position, runNumber := s.control.runNumber,
               index := min (file.firstIndex + file.records.length + 1) 65535 }] }
          episodes := { s.control.episodes with txqFull := true } }
        link := { s.link with drops := { s.link.drops with other := min (s.link.drops.other + 2) 65535 } } })

/-- STILLNESS: the still mark is set and the time stands at the still time. Outside RUNNING nothing else happens;
RUNNING becomes STILL, a FREE, SETTLING or OFF scheduler is OFF with the high voltage off, a shot or a recovery goes
on, and STATUS page 0 is queued (R10, R32, R165, R166). -/
def Obligations.StillnessTakesRunningToStill : Prop :=
  ∀ s : State, s.odo.active = true → s.odo.stillMark = false →
    let marked : State := { s with odo := { s.odo with sinceEdge := s.stillTicks, stillMark := true } }
    (s.control.state ≠ .running → exec .stillness s = .next marked) ∧
    (s.control.state = .running → s.hasRoomFor 1 →
      ∃ f, f.showsState .still ∧
        exec .stillness s = .next { marked with
          control := { s.control with state := .still }
          sched := { s.sched with state :=
            match s.sched.state with
            | .listening shot => .listening shot
            | .recovering n => .recovering n
            | _ => .off }
          pulser := { s.pulser with hv :=
            match s.sched.state with
            | .listening _ => s.pulser.hv
            | .recovering _ => s.pulser.hv
            | _ => .off }
          link := s.link.queueing [f] })

/-- LIFT_RECOGNISED: the level timed is recognised and the filter stops. A state already held changes nothing more,
and neither does RAISED outside RUNNING and STILL or LOWERED outside LIFTED (so in READY and HALTED). RAISED in
RUNNING or STILL makes the station LIFTED, noting whether it was STILL, takes a FREE or SETTLING scheduler OFF and
leaves any other, and the high voltage, as they are, and in an active account abandons every coupling run and loss
record and gives every enabled element the cause LIFTED, with one GAP OPEN of the elements whose gap opens at the
current car position. LOWERED in LIFTED makes the station RUNNING: in an active account the cause LIFTED leaves every
element that carries it, with its gap start if it was the last, and the gaps that close so are told in GAP CLOSE
notices of cause LIFTED, one for each start X; an OFF scheduler becomes FREE on a READY high voltage and otherwise
settles it, and any other goes on. STATUS page 0 comes last. Where the scheduler is then FREE, the high voltage READY
and elements are due, a shot fires (State.fires says what it leaves) (R12, R13, R20 to R24, R27, R30, R31, R35, R36,
R60, R72, R102 to R105, R110, R111, R165, R166, R170). That the LIFTED gaps close before the shot fires, and that the
requests of one fire are told together, is the model's reading (assumption log 18). -/
def Obligations.LiftRecognitionsMoveTheStation : Prop :=
  ∀ (peaks : Eight Nat) (s : State) (held : Nat), s.odo.active = true → s.odo.liftHeld = some held →
    let lift : LiftState := if s.odo.liftLevel = s.station.liftActive then .raised else .lowered
    (lift = s.odo.lift →
      exec (.liftRecognised peaks) s = .next { s with odo := { s.odo with liftHeld := none } }) ∧
    ((lift = .raised ∧ s.control.state ≠ .running ∧ s.control.state ≠ .still) ∨
        (lift = .lowered ∧ s.control.state ≠ .lifted) →
      exec (.liftRecognised peaks) s = .next { s with odo := { s.odo with liftHeld := none, lift := lift } }) ∧
    (lift = .raised → s.odo.lift = .lowered → s.control.state = .running ∨ s.control.state = .still →
      ∃ t, exec (.liftRecognised peaks) s = .next t ∧
        t.odo = { s.odo with liftHeld := none, lift := .raised } ∧
        t.control.state = .lifted ∧ (t.control.liftFromStill = true ↔ s.control.state = .still) ∧
        t.pulser = s.pulser ∧ t.sched.element = s.sched.element ∧
        (s.sched.state = .free ∨ s.sched.state = .settling → t.sched.state = .off) ∧
        (s.sched.state ≠ .free → s.sched.state ≠ .settling → t.sched.state = s.sched.state) ∧
        (s.cover.accounting = .idle → t.cover = s.cover) ∧
        (s.cover.accounting = .active → ∀ e : Element,
          let c := s.cover.element.get e
          let on := s.control.enableMask.get e
          t.cover.element.get e = { c with
            run := none
            backWall := .present
            causes := if on then { c.causes with lifted := true } else c.causes
            gapStart := if on = true ∧ c.causes.nonempty = false then some s.currentX else c.gapStart }) ∧
        t.tracker = s.tracker ∧ t.judge = s.judge ∧ t.pair = s.pair ∧ t.control.enableMask = s.control.enableMask ∧
        (s.hasRoomFor 2 → ∃ gaps f, s.opensGaps 1 gaps ∧ f.showsState .lifted ∧
          t.link = s.link.queueing (gaps ++ [f]) ∧
          t.control = { s.control with state := .lifted, liftFromStill := t.control.liftFromStill }) ∧
        s.sameSetup t ∧ s.sameOutside t) ∧
    (lift = .lowered → s.odo.lift = .raised → s.control.state = .lifted →
      (s.sched.state = .off ∨ s.sched.state = .free → s.pulser.hv = .ready → s.nothingDue s.odo.travel) →
      ∃ t, exec (.liftRecognised peaks) s = .next t ∧
        t.odo = { s.odo with liftHeld := none, lift := .lowered } ∧
        t.control.state = .running ∧ t.control.liftFromStill = false ∧
        t.sched = { s.sched with state :=
          if s.sched.state = .off then if s.pulser.hv = .ready then .free else .settling else s.sched.state } ∧
        t.pulser = { s.pulser with hv :=
          if s.sched.state = .off ∧ s.pulser.hv = .off then .settling 0 else s.pulser.hv } ∧
        t.cover = s.cover.lowered ∧
        t.tracker = s.tracker ∧ t.judge = s.judge ∧ t.pair = s.pair ∧ t.control.enableMask = s.control.enableMask ∧
        (s.hasRoomFor 9 → ∃ gaps f, s.closesLifts gaps ∧ f.showsState .running ∧
          t.link = s.link.queueing (gaps ++ [f]) ∧
          t.control = { s.control with state := .running, liftFromStill := false }) ∧
        s.sameSetup t ∧ s.sameOutside t) ∧
    (lift = .lowered → s.odo.lift = .raised → s.control.state = .lifted →
      s.sched.state = .off ∨ s.sched.state = .free → s.pulser.hv = .ready →
      ∀ e0 : Element, s.control.enableMask.get e0 = true → (s.sched.element.get e0).nextDue ≤ s.odo.travel →
        let taken := takeShot s.station s.dueOrder
        taken ≠ [] ∧ ∃ gaps t shot, s.closesLifts gaps ∧ exec (.liftRecognised peaks) s = .next t ∧
          (let lowered : State := { s with
             control := { s.control with state := .running, liftFromStill := false }
             cover := s.cover.lowered
             link := s.link.queueing gaps }
           lowered.fires peaks taken (fun _ => false) shot t ∧
           (lowered.hasRoomFor (s.tracker.chains.length + 3 * taken.length + 2) →
             ∃ f, t.link.txQueue.getLast? = some f ∧ f.showsState .running)) ∧
          t.control.state = .running ∧ t.control.liftFromStill = false ∧
          t.odo = { s.odo with liftHeld := none, lift := .lowered } ∧ s.sameSetup t ∧ s.sameOutside t)

/-! ## Shots -/

/-- LISTENING_END of a shot in flight: its traces are worked, one result for each element of the shot that was not
bad-fired, in increasing element number, and no result for a bad-fired one. The chain tracker has worked every result
in that order, then cleared the in-flight set and closed the chains of the shot's elements past their gap, and no
others; a freed chain entry clears the CHAIN_FULL mark; an active coverage account has worked every result in the same
order, its coupling before its back-wall finding, and an idle one stands; the excess echoes are added; and the
scheduler recovers, or goes OFF with the high voltage off when a STOP has made the station READY (R26, R33, R39, R40,
R52, R61, R63, R68, R97, R108, R174). -/
def Obligations.ListeningEndDeliversTheShot : Prop :=
  ∀ (traces : Eight (List Byte)) (shot : Shot) (s : State), s.sched.state = .listening shot →
    let worked : List (ShotResult × Nat) :=
      (([0, 1, 2, 3, 4, 5, 6, 7] : List Element).filter fun e => shot.set.get e && !shot.badFired.get e).map fun e =>
        workTrace (s.elem e) e shot (traces.get e)
    let results := worked.map (·.1)
    let assigned := results.foldl (fun u r => u.assignResult r) s
    ∃ t, exec (.listeningEnd traces) s = .next t ∧
      t.tracker = { assigned.tracker with
        inFlight := none
        chains := assigned.tracker.chains.filter fun c =>
          !(shot.set.get c.element && decide (1000 * (s.elem c.element).chainGap < s.odo.travel - c.lastTravel)) } ∧
      t.control.episodes.chainFull =
        (assigned.control.episodes.chainFull && decide (t.tracker.chains = assigned.tracker.chains)) ∧
      (s.cover.accounting = .idle → t.cover = s.cover) ∧
      (s.cover.accounting = .active →
        t.cover = (results.foldl (fun u r => (u.coupleShot r).backWallShot r) s).cover) ∧
      t.judge.excess = min (s.judge.excess + (worked.map (·.2)).sum) 65535 ∧
      t.sched.element = s.sched.element ∧ t.pulser.badFires = s.pulser.badFires ∧
      (s.control.state = .ready → t.sched.state = .off ∧ t.pulser.hv = .off) ∧
      (s.control.state ≠ .ready →
        t.sched.state = .recovering (50 * s.station.recovery) ∧ t.pulser.hv = s.pulser.hv) ∧
      (∀ c ∈ t.tracker.chains, shot.set.get c.element = true →
        s.odo.travel ≤ c.lastTravel + 1000 * (s.elem c.element).chainGap) ∧
      t.odo = s.odo ∧ t.control.state = s.control.state ∧ t.control.enableMask = s.control.enableMask ∧
      s.sameSetup t ∧ s.sameOutside t

/-- RECOVERY_END: OFF with the high voltage off in STILL and in a LIFTED entered from STILL, OFF with the high voltage
as it is in any other LIFTED or with a high voltage that is not READY, and FREE in RUNNING with READY high voltage,
where with nothing due nothing more happens, and with elements due a shot fires (State.fires says what it leaves) (R20
to R24, R27, R35, R36, R60, R72, R170). That the requests of one fire are told together is the model's reading
(assumption log 18). -/
def Obligations.RecoveryEndFreesOrStops : Prop :=
  ∀ (peaks : Eight Nat) (n : Nat) (s : State), s.sched.state = .recovering n →
    (s.control.state = .still ∨ (s.control.state = .lifted ∧ s.control.liftFromStill = true) →
      exec (.recoveryEnd peaks) s = .next
        { s with sched := { s.sched with state := .off }, pulser := { s.pulser with hv := .off } }) ∧
    (s.control.state = .lifted → s.control.liftFromStill = false →
      exec (.recoveryEnd peaks) s = .next { s with sched := { s.sched with state := .off } }) ∧
    (s.control.state = .running → s.pulser.hv ≠ .ready →
      exec (.recoveryEnd peaks) s = .next { s with sched := { s.sched with state := .off } }) ∧
    (s.control.state = .running → s.pulser.hv = .ready →
      (∀ e : Element, s.control.enableMask.get e = true → s.odo.travel < (s.sched.element.get e).nextDue) →
      exec (.recoveryEnd peaks) s = .next { s with sched := { s.sched with state := .free } }) ∧
    (s.control.state = .running → s.pulser.hv = .ready →
      ∀ e0 : Element, s.control.enableMask.get e0 = true → (s.sched.element.get e0).nextDue ≤ s.odo.travel →
        let taken := takeShot s.station s.dueOrder
        taken ≠ [] ∧ ∃ t shot, exec (.recoveryEnd peaks) s = .next t ∧ s.fires peaks taken (fun _ => false) shot t ∧
          t.odo = s.odo ∧ t.control.state = .running ∧ s.sameSetup t ∧ s.sameOutside t)

/-- SETTLE_COMPLETE: the high voltage is READY; a SETTLING scheduler of a RUNNING station becomes FREE, and with
nothing due nothing more happens; any other scheduler is left alone (R20, R28, R29). -/
def Obligations.SettleCompleteReadiesThePulsers : Prop :=
  ∀ (peaks : Eight Nat) (n : Nat) (s : State), s.pulser.hv = .settling n →
    (s.sched.state ≠ .settling ∨ s.control.state ≠ .running →
      exec (.settleComplete peaks) s = .next { s with pulser := { s.pulser with hv := .ready } }) ∧
    (s.sched.state = .settling → s.control.state = .running →
      (∀ e : Element, s.control.enableMask.get e = true → s.odo.travel < (s.sched.element.get e).nextDue) →
      exec (.settleComplete peaks) s = .next
        { s with pulser := { s.pulser with hv := .ready }, sched := { s.sched with state := .free } })

/-- A settle that ends with elements due fires a shot: travel and fine position are latched, the listening time is the
longest window, the elements off their acceptance window are marked bad-fired and counted, and the fired elements take
their next-due update while the others keep theirs. At the chain tracker the set is in flight and the fired elements'
chains past their gap are closed. An undersampled mark that changes is carried into the element's gap causes in an
active account, and the gaps that open or close so at the current car position are told in GAP notices. A fired
element whose bad-fire count this fire brings to three leaves the enable mask, all its chains close, a PULSER record
with the element is filed and its FAULT notice queued, and in an active account it carries the cause PULSER, told in a
GAP OPEN when its gap opens; no other element leaves the mask and no other chain closes. State.fires says all of this
in full (R20 to R24, R29, R35, R36, R60, R68, R72, R102 to R105, R170, R172). That the requests of one fire are told
together is the model's reading (assumption log 18). -/
def Obligations.DueElementsFireAtTheSettle : Prop :=
  ∀ (peaks : Eight Nat) (n : Nat) (s : State), s.pulser.hv = .settling n → s.sched.state = .settling →
    s.control.state = .running →
    ∀ e0 : Element, s.control.enableMask.get e0 = true → (s.sched.element.get e0).nextDue ≤ s.odo.travel →
    let taken := takeShot s.station s.dueOrder
    taken ≠ [] ∧ ∃ t shot, exec (.settleComplete peaks) s = .next t ∧ s.fires peaks taken (fun _ => false) shot t ∧
      t.odo = s.odo ∧ t.control.state = .running ∧ s.sameSetup t ∧ s.sameOutside t

/-- Forming a shot: the due elements stand by next-due travel and, among equals, by number; the first is taken, every
two taken are compatible both ways, and no more are taken than the limit. Each element in its turn is taken exactly
when none has been taken before it, or when fewer than the limit have been and it is compatible with every one of
them: one passed over is incompatible with one taken before it or finds the limit reached when it is considered (R20,
R21). -/
def Obligations.ShotsAreCompatibleAndLimited : Prop :=
  (∀ s : State,
    s.dueOrder.Pairwise (fun a b => s.nextDue a < s.nextDue b ∨ (s.nextDue a = s.nextDue b ∧ a < b)) ∧
    ∀ e : Element, e ∈ s.dueOrder ↔
      (s.control.enableMask.get e = true ∧ (s.sched.element.get e).nextDue ≤ s.odo.travel)) ∧
  ∀ (c : StationSection) (order : List Element), 1 ≤ c.perShotLimit →
    let taken := takeShot c order
    taken.head? = order.head? ∧ taken.Sublist order ∧ taken.length ≤ c.perShotLimit ∧
    taken.Pairwise (fun a b => compatible c b a = true) ∧
    ∀ (before : List Element) (e : Element) (after : List Element), order = before ++ e :: after → order.Nodup →
      let earlier := taken.filter fun f => before.contains f
      (e ∈ taken ↔ earlier = [] ∨ (earlier.length < c.perShotLimit ∧ ∀ f ∈ earlier, compatible c e f = true)) ∧
      (e ∉ taken → earlier.length = c.perShotLimit ∨ ∃ f ∈ earlier, compatible c e f = false)

/-- The update of a fired element. A firing that lags less than one pitch is on the grid: the next-due travel rises by
one pitch, the on-grid run by one up to 8, and the undersampled mark clears when the run reaches 8. Any other skips:
the next-due travel moves to the next grid point past the fire, the on-grid run starts again, the skip count grows by
the grid points skipped, and the undersampled mark is set (R23, R24). That the skip count is held to 255 in the
scheduler is the model's choice where the manual speaks both ways (assumption log 25). -/
def Obligations.FiringMovesToTheNextGridPoint : Prop :=
  ∀ (t d : Nat) (e : ElementSched), 0 < d → e.nextDue ≤ t →
    let lag := t - e.nextDue
    let n := fireElement t d e
    (lag < d → n.nextDue = e.nextDue + d ∧ n.onGrid = min (e.onGrid + 1) 8 ∧ n.skipCount = e.skipCount) ∧
    (d ≤ lag → n.nextDue = e.nextDue + (lag / d + 1) * d ∧ n.onGrid = 0 ∧
      n.skipCount = min (e.skipCount + lag / d) 255) ∧
    (lag = d → n.skipCount = min (e.skipCount + 1) 255) ∧
    (lag < d → e.onGrid = 7 → n.undersampled = false) ∧ (lag < d → e.onGrid ≠ 7 → n.undersampled = e.undersampled) ∧
    (d ≤ lag → n.undersampled = true) ∧
    t < n.nextDue ∧ n.nextDue ≤ t + d ∧ d ∣ n.nextDue - e.nextDue

/-! ## Requests -/

/-- Dispatch of the head of the receive queue: it leaves the queue, the queue becoming empty clears the RXQ_OVERRUN
mark, and the peer it comes from, if it has an entry, is LIVE and heard at the present travel; nothing else changes
(R120, R152, R153). -/
def Obligations.TakingTheHeadShowsTheSender : Prop :=
  ∀ (f : Frame) (rest : List Frame) (s : State), s.link.rxQueue = f :: rest →
    s.takeHead f.source =
      { s with
        link := { s.link with rxQueue := rest }
        control := { s.control with episodes := { s.control.episodes with
          rxqOverrun := if rest = [] then false else s.control.episodes.rxqOverrun } }
        pair := { s.pair with peers := s.pair.peers.map fun q =>
          if q.address = f.source then { q with live := true, lastHeard := s.odo.travel } else q } }

/-- A RUN taken in READY or HALTED: run number, mask, position, travel, due travels, bad-fire counts, chain table,
sequence number, coverage account and pairing lists are set for the new run, the peer table is kept with every peer
heard at travel 0, the counters, zones, queued notices and faults are kept, and the station is RUNNING with the high
voltage settling, a non-fresh ANNOUNCE of the new run number, mask and elements, and STATUS page 0, queued. With the
carriage recognised RAISED it goes on to LIFTED at once: the scheduler is OFF, every enabled element carries the cause
LIFTED from the start position on, one GAP OPEN covers them, and a second STATUS page 0 follows (R16, R19, R30, R31,
R59, R80, R98, R111, R115, R167). That the run start also clears the CHAIN_FULL mark, which Table 9-1 does not say, is
the model's choice (assumption log 16). -/
def Obligations.AcceptedRunStartsARun : Prop :=
  ∀ (src : BitVec 4) (dest : Byte) (number : BitVec 16) (start : BitVec 32) (f : Frame) (rest : List Frame) (s : State),
    s.waits f rest (.run src dest number start) → number ≠ 0 →
    s.control.state = .ready ∨ s.control.state = .halted → s.sched.state = .off → s.pulser.hv = .off →
    s.hasRoomFor (if s.odo.lift = .raised then 4 else 2) →
    let u := s.takeHead f.source
    let begun : Control := { u.control with
      state := .running, runNumber := number, runEndPending := false, enableMask := s.control.configuredMask,
      episodes := { u.control.episodes with chainFull := false } }
    let account : Coverage :=
      { accounting := .active, element := Eight.all ElementCover.fresh, spanIndex := 0, spanStart := 0, lastTravel := 0,
        runMask := s.control.configuredMask }
    let x := max Config.positionMin (min Config.positionMax (start.toInt + s.station.mountOffset))
    ∃ t ann status, exec (.run src dest number start) s = .next t ∧
      ann.announces begun false ∧ status.showsState .running ∧
      t.odo = { s.odo with
        pos := ⟨start.toInt, 0⟩, travel := 0, direction := .forward, extreme := ⟨start.toInt, 0⟩, sinceEdge := 0,
        stillMark := false } ∧
      t.pulser.hv = .settling 0 ∧
      (∀ e : Element, (t.sched.element.get e).skipCount = 0 ∧ (t.sched.element.get e).onGrid = 0 ∧
        (t.sched.element.get e).undersampled = false ∧ t.pulser.badFires.get e = 0 ∧
        (t.sched.element.get e).nextDue =
          if s.control.configuredMask.get e then (s.elem e).phase else (s.sched.element.get e).nextDue) ∧
      t.tracker = { s.tracker with chains := [], nextNumber := 1, inFlight := none } ∧
      t.judge = { s.judge with nextSeq := 1 } ∧
      t.pair = { s.pair with
        runMark := true, notices := [], own := []
        peers := u.pair.peers.map fun q => { q with lastHeard := 0 } } ∧
      (s.odo.lift = .lowered →
        t.control = begun ∧ t.sched.state = .settling ∧ t.cover = account ∧
        t.link = u.link.queueing [ann, status]) ∧
      (s.odo.lift = .raised →
        t.control = { begun with state := .lifted, liftFromStill := false } ∧ t.sched.state = .off ∧
        t.cover = { account with element := Eight.ofFn fun e =>
          if s.control.configuredMask.get e then
            { ElementCover.fresh with causes := ⟨false, true, false, false, false⟩, gapStart := some x }
          else ElementCover.fresh } ∧
        ∃ gaps second, t.link = u.link.queueing ([ann, status] ++ gaps ++ [second]) ∧ second.showsState .lifted ∧
          gapNotices s.control.address 1 x
            (fun e => if s.control.configuredMask.get e then some (false, x) else none) gaps) ∧
      t.pins = s.pins ∧ t.loader = s.loader ∧ t.hold = s.hold ∧ t.pending = s.pending

/-- A RUN with run number 0 is counted UNKNOWN and has no effect in any state; in UNCONFIGURED, RUNNING, LIFTED and
STILL a RUN is answered with STATUS page 0 and has no other effect (R154, R167). -/
def Obligations.RefusedRunChangesNoRun : Prop :=
  ∀ (src : BitVec 4) (dest : Byte) (number : BitVec 16) (start : BitVec 32) (f : Frame) (rest : List Frame) (s : State),
    s.waits f rest (.run src dest number start) →
    let u := s.takeHead f.source
    (number = 0 → exec (.run src dest number start) s = .next
      { u with link := { u.link with counts := { u.link.counts with
        unknown := min (u.link.counts.unknown + 1) 65535 } } }) ∧
    (number ≠ 0 →
      s.control.state = .unconfigured ∨ s.control.state = .running ∨ s.control.state = .lifted ∨
        s.control.state = .still →
      s.hasRoomFor 1 →
      ∃ status, status.showsState s.control.state ∧ exec (.run src dest number start) s = .next
        { u with link := u.link.queueing [status] })

/-- A STOP in RUNNING, LIFTED, STILL or HALTED takes the station to READY with the run end pending, lets a listening
shot complete and otherwise takes the scheduler OFF with the high voltage off, and queues STATUS page 0; in READY and
UNCONFIGURED it is ignored (R33, R154, R168). -/
def Obligations.StopMakesTheRunEndPending : Prop :=
  ∀ (src : BitVec 4) (dest : Byte) (f : Frame) (rest : List Frame) (s : State), s.waits f rest (.stop src dest) →
    let u := s.takeHead f.source
    (s.control.state = .ready ∨ s.control.state = .unconfigured → exec (.stop src dest) s = .next u) ∧
    (s.inRun ∨ s.control.state = .halted → s.hasRoomFor 1 →
      ∃ status, status.showsState .ready ∧ exec (.stop src dest) s = .next
        { u with
          control := { u.control with state := .ready, runEndPending := true, liftFromStill := false }
          sched := { s.sched with state := if s.sched.state.listens then s.sched.state else .off }
          pulser := { s.pulser with hv := if s.sched.state.listens then s.pulser.hv else .off }
          link := u.link.queueing [status] })

/-- RUN_END, due once a STOP is pending and the scheduler is OFF. Every chain is closed and judged in creation order,
then every open loss record is closed at the current car position and judged, in increasing element number; every open
gap is closed in GAP CLOSE notices of cause RUN_END, one for each start X, and a span entered but not ended is
reported in one SPAN notice over the travel it covered, in this order, while the transmit queue has room; a freed
chain entry clears the CHAIN_FULL mark; the account is IDLE, the pairing lists are empty and the run mark clear, and
the pending mark is cleared; run number, mask and skip counts stand (R68, R70, R73, R90, R98, R105, R107, R113, R115,
R168; that the partial span of a STOP from a halt follows the same formula is the model's choice, assumption log 22).
A RUN_END that is not due changes nothing: the model's reading of a command whose event cannot occur (assumption log
6). -/
def Obligations.RunEndClosesTheRun : Prop :=
  ∀ s : State,
    (s.control.runEndPending = true → s.sched.state = .off →
      let chained := s.tracker.chains.foldl (fun u c => u.judgeChain c) s
      let judged := elements.foldl (fun u e =>
        match (s.cover.element.get e).backWall with
        | .lost startX => u.judgeLoss e startX s.currentX
        | .present => u) chained
      let covered := s.cover.lastTravel - s.cover.spanStart
      ∃ t, exec .runEnd s = .next t ∧
        t.tracker = { s.tracker with chains := [] } ∧ t.judge = judged.judge ∧ t.cover.accounting = .idle ∧
        (∀ e : Element, (t.cover.element.get e).causes.nonempty = false ∧
          (t.cover.element.get e).backWall = .present ∧
          ((s.cover.element.get e).causes.nonempty = true → (t.cover.element.get e).gapStart = none)) ∧
        t.control.episodes.chainFull = (s.control.episodes.chainFull && s.tracker.chains.isEmpty) ∧
        (judged.hasRoomFor 9 → ∃ gaps span,
          gapNotices s.control.address 5 s.currentX
            (fun e =>
              if (s.cover.element.get e).causes.nonempty then
                some (true, (s.cover.element.get e).gapStart.getD s.currentX)
              else none) gaps ∧
          span.showsSpan s covered (fun e => (s.cover.element.get e).gapTravel) ∧
          t.link = judged.link.queueing (gaps ++ if 0 < covered then [span] else [])) ∧
        t.pair.runMark = false ∧ t.pair.notices = [] ∧ t.pair.own = [] ∧ t.pair.peers = s.pair.peers ∧
        t.control.runEndPending = false ∧ t.control.state = s.control.state ∧
        t.control.runNumber = s.control.runNumber ∧ t.control.enableMask = s.control.enableMask ∧
        t.odo = s.odo ∧ t.sched = s.sched ∧ t.pulser = s.pulser ∧ s.sameSetup t ∧ s.sameOutside t) ∧
    (s.control.runEndPending = false ∨ s.sched.state ≠ .off → exec .runEnd s = .next s)

/-- A HALT in RUNNING, LIFTED or STILL takes the station to HALTED: the scheduler is OFF with the high voltage off,
the chains are discarded and counted, which clears the CHAIN_FULL mark if there were any, the coverage monitor
abandons its runs and loss records and gives every enabled element the cause HALTED, and the judge and the pairing
unit are not told; the elements whose gap opens are told in one GAP OPEN at the current car position, which they take
as their gap start, and STATUS page 0 follows. In READY, HALTED and UNCONFIGURED it changes nothing (R34, R68, R74,
R103, R105, R112, R165, R169). -/
def Obligations.HaltEndsTheRunAtOnce : Prop :=
  ∀ (src : BitVec 4) (dest : Byte) (f : Frame) (rest : List Frame) (s : State), s.waits f rest (.halt src dest) →
    let u := s.takeHead f.source
    (s.control.state = .ready ∨ s.control.state = .halted ∨ s.control.state = .unconfigured →
      exec (.halt src dest) s = .next u) ∧
    (s.inRun → ∃ t, exec (.halt src dest) s = .next t ∧
      t.control.state = .halted ∧ t.control.runNumber = s.control.runNumber ∧
      t.control.enableMask = s.control.enableMask ∧
      t.sched = { s.sched with state := .off } ∧ t.pulser = { s.pulser with hv := .off } ∧
      t.tracker = { s.tracker with
        chains := [], inFlight := none, discarded := min (s.tracker.discarded + s.tracker.chains.length) 65535 } ∧
      (s.cover.accounting = .active → ∀ e : Element,
        (t.cover.element.get e).run = none ∧ (t.cover.element.get e).backWall = .present ∧
        (s.control.enableMask.get e = true → (t.cover.element.get e).causes.halted = true) ∧
        (s.control.enableMask.get e = true → (s.cover.element.get e).causes.nonempty = false →
          (t.cover.element.get e).gapStart = some s.currentX) ∧
        ((s.cover.element.get e).causes.nonempty = true →
          (t.cover.element.get e).gapStart = (s.cover.element.get e).gapStart)) ∧
      t.control.episodes.chainFull = (s.control.episodes.chainFull && s.tracker.chains.isEmpty) ∧
      (s.hasRoomFor 2 → ∃ gaps f, s.opensGaps 2 gaps ∧ f.showsState .halted ∧
        t.link = u.link.queueing (gaps ++ [f])) ∧
      t.judge = s.judge ∧ t.pair = u.pair ∧ t.odo = s.odo ∧ s.sameSetup t ∧ u.sameOutside t)

/-- A ZONE request writes the entry of its index, base rounded down and limit rounded up to whole 16 mm blocks, enabled
when the base is not above the limit; an index above 7 is counted UNKNOWN, and in UNCONFIGURED the request is ignored
(R91, R154). -/
def Obligations.ZoneRequestWritesOneEntry : Prop :=
  ∀ (src : BitVec 4) (dest index : Byte) (base limit : BitVec 32) (f : Frame) (rest : List Frame) (s : State),
    s.waits f rest (.zone src dest index base limit) →
    let u := s.takeHead f.source
    (8 ≤ index.toNat → exec (.zone src dest index base limit) s = .next
      { u with link := { u.link with counts := { u.link.counts with
        unknown := min (u.link.counts.unknown + 1) 65535 } } }) ∧
    (index.toNat < 8 → s.control.state = .unconfigured → exec (.zone src dest index base limit) s = .next u) ∧
    (index.toNat < 8 → s.control.state ≠ .unconfigured →
      ∃ z : Zone, z.enabled = decide (base.toInt ≤ limit.toInt) ∧
        z.base ≤ base.toInt ∧ base.toInt < z.base + 16 ∧ 16 ∣ z.base ∧
        limit.toInt ≤ z.limit ∧ z.limit < limit.toInt + 16 ∧ 16 ∣ z.limit + 1 ∧
        ∃ j, (∀ i : Fin 8, j.zones.get i = if i.val = index.toNat then z else s.judge.zones.get i) ∧
          j = { s.judge with zones := j.zones } ∧
          exec (.zone src dest index base limit) s = .next { u with judge := j })

/-- A FLUSH by its scope: ALL empties both pairing lists, PEER removes the notices of the named sender, OWN empties
the own pairing list; a scope of 3 or more is counted UNKNOWN, and in UNCONFIGURED the request is ignored (R134,
R154). -/
def Obligations.FlushEmptiesByScope : Prop :=
  ∀ (src : BitVec 4) (dest scope : Byte) (peer : BitVec 4) (f : Frame) (rest : List Frame) (s : State),
    s.waits f rest (.flush src dest scope peer) →
    let u := s.takeHead f.source
    (3 ≤ scope.toNat → exec (.flush src dest scope peer) s = .next
      { u with link := { u.link with counts := { u.link.counts with
        unknown := min (u.link.counts.unknown + 1) 65535 } } }) ∧
    (scope.toNat < 3 → s.control.state = .unconfigured → exec (.flush src dest scope peer) s = .next u) ∧
    (scope = 0 → s.control.state ≠ .unconfigured → exec (.flush src dest scope peer) s = .next
      { u with pair := { u.pair with notices := [], own := [] } }) ∧
    (scope = 1 → s.control.state ≠ .unconfigured → exec (.flush src dest scope peer) s = .next
      { u with pair := { u.pair with notices := s.pair.notices.filter fun n => n.sender != peer } }) ∧
    (scope = 2 → s.control.state ≠ .unconfigured → exec (.flush src dest scope peer) s = .next
      { u with pair := { u.pair with own := [] } })

/-- A CLEAR empties the fault file, clears its overflow mark and moves the first-record index to the index the next
record would take; nothing else changes (R171). A QUERY queues one STATUS notice of the page it names, or of page 0
for a page above 3, with the figures of Table 10-10 as they stand, a counter carried in one byte showing 255 from 255
on; nothing else changes (R171, R175, R176). -/
def Obligations.ClearAndQueryServeTheConsole : Prop :=
  (∀ (src : BitVec 4) (dest : Byte) (f : Frame) (rest : List Frame) (s : State), s.waits f rest (.clear src dest) →
    let u := s.takeHead f.source
    exec (.clear src dest) s = .next { u with control := { u.control with faults :=
      { records := [], overflow := false,
        firstIndex := min (s.control.faults.firstIndex + s.control.faults.records.length) 65535 } } }) ∧
  ∀ (src : BitVec 4) (dest page : Byte) (f : Frame) (rest : List Frame) (s : State),
    s.waits f rest (.query src dest page) → s.hasRoomFor 1 →
    let u := s.takeHead f.source
    let given : Byte := if page.toNat ≤ 3 then page else 0
    let word : Nat → BitVec 16 := fun n => BitVec.ofNat 16 n
    let byte : Nat → Byte := fun n => BitVec.ofNat 8 (min n 255)
    let c := s.link.counts
    ∃ status, status.kind = Kind.status ∧ status.source = s.control.address ∧ status.payload.length = 14 ∧
      byteAt status.payload 0 = given ∧
      (let p := status.payload
       (given = 0 →
         (byteAt p 1).extractLsb' 4 4 = (stationCode s.control.state).setWidth 4 ∧
         (byteAt p 1).extractLsb' 2 2 = causeCode s.control.cause ∧
         (byteAt p 1).getLsbD 1 = s.control.faults.overflow ∧ (byteAt p 1).getLsbD 0 = false ∧
         word16At p 2 = s.control.runNumber ∧ word16At p 4 = word s.control.faultOffset ∧
         (∀ e : Element, (byteAt p 6).getLsbD e.val = s.control.enableMask.get e) ∧
         byteAt p 7 = BitVec.ofNat 8 s.control.faults.records.length ∧
         word16At p 8 = word s.control.faults.firstIndex ∧ word16At p 10 = s.control.imageId ∧ word16At p 12 = 0) ∧
       (given = 1 →
         word16At p 1 = word c.sent ∧ word16At p 3 = word c.received ∧ word16At p 5 = word c.lost ∧
         byteAt p 7 = byte c.txError ∧ byteAt p 8 = byte c.aborted ∧ byteAt p 9 = byte c.rxCrc ∧
         byteAt p 10 = byte c.rxForm ∧ byteAt p 11 = byte c.overrun ∧ byteAt p 12 = byte c.unknown ∧
         byteAt p 13 = byte c.noise) ∧
       (given = 2 →
         word16At p 1 = word s.judge.rejected ∧ word16At p 3 = word s.judge.suppressed ∧
         word16At p 5 = word s.judge.excess ∧ word16At p 7 = word s.tracker.dropped ∧
         word16At p 9 = word s.pair.lost ∧ word16At p 11 = word s.link.drops.indication ∧
         byteAt p 13 = byte s.tracker.discarded) ∧
       (given = 3 →
         (∀ e : Element, byteAt p (1 + e.val) = byte (s.sched.element.get e).skipCount) ∧
         word16At p 9 = word s.link.drops.gap ∧ byteAt p 11 = byte s.link.drops.span ∧
         word16At p 12 = word s.link.drops.other)) ∧
      exec (.query src dest page) s = .next
        { u with link := u.link.queueing [status] }

/-! ## Notices of peers -/

/-- A peer's ANNOUNCE without undefined codes: a new address, or a new start of a known one, has its entry made anew and
its earlier notices forgotten; any other ANNOUNCE refreshes state, elements and liveness and keeps the gap marks. A new
address or a fresh ANNOUNCE is answered with one non-fresh ANNOUNCE (R118, R119). -/
def Obligations.AnnounceMakesOrRefreshesAnEntry : Prop :=
  ∀ (src : BitVec 4) (a : AnnounceFields) (f : Frame) (rest : List Frame) (s : State) (state : StationState)
    (cause : ResetCause) (els : Eight PeerElement),
    s.waits f rest (.announce src a) → stationOf a.state = some state → causeOf a.cause = some cause →
    announcedElements a = some els →
    let u := s.takeHead f.source
    let entry : Peer := ⟨src, railOf a.rail, state, a.runNumber, els, s.odo.travel, true⟩
    let forgotten := s.pair.notices.filter fun n => n.sender != src
    (∀ q, s.pair.peers.find? (fun q => q.address == src) = some q →
      a.fresh = false → a.runNumber = q.runNumber → q.state ≠ .unconfigured → q.state ≠ .ready →
      exec (.announce src a) s = .next { u with pair := { u.pair with
        peers := s.pair.peers.map fun r =>
          if r.address = src then
            { r with
              state := state
              element := Eight.ofFn fun e => { els.get e with gapOpen := (r.element.get e).gapOpen }
              live := true
              lastHeard := s.odo.travel }
          else r } }) ∧
    (∀ q, s.pair.peers.find? (fun q => q.address == src) = some q →
      a.fresh = false → a.runNumber ≠ q.runNumber ∨ q.state = .unconfigured ∨ q.state = .ready →
      exec (.announce src a) s = .next { u with pair := { u.pair with
        peers := s.pair.peers.map fun r => if r.address = src then entry else r, notices := forgotten } }) ∧
    (s.pair.peers.find? (fun q => q.address == src) = none → s.hasRoomFor 1 →
      ∃ ann, ann.announces s.control false ∧ exec (.announce src a) s = .next
        { u with
          pair := { u.pair with peers := s.pair.peers ++ [entry], notices := forgotten }
          link := u.link.queueing [ann] }) ∧
    (∀ q, s.pair.peers.find? (fun q => q.address == src) = some q → a.fresh = true → s.hasRoomFor 1 →
      ∃ ann, ann.announces s.control false ∧ exec (.announce src a) s = .next
        { u with
          pair := { u.pair with
            peers := s.pair.peers.map fun r => if r.address = src then entry else r, notices := forgotten }
          link := u.link.queueing [ann] })

/-- A peer's notice with an undefined code in a field its block reads is counted UNKNOWN and worked no further: a
cause 6 or 7 in GAP, a station state 0 or 7, a reset cause 3 or a sense 3 of an enabled element in ANNOUNCE, and,
while the run mark is set, a sense 3 in INDICATION (R177; that INDICATION counts it only while the run mark is set is
the model's reading, assumption log 8). -/
def Obligations.UndefinedCodesAreCountedUnknown : Prop :=
  ∀ (src : BitVec 4) (f : Frame) (rest : List Frame) (s : State),
    let u := s.takeHead f.source
    let counted : State := { u with link := { u.link with counts := { u.link.counts with
      unknown := min (u.link.counts.unknown + 1) 65535 } } }
    (∀ g : GapFields, s.waits f rest (.gap src g) → g.cause = 6 ∨ g.cause = 7 →
      exec (.gap src g) s = .next counted) ∧
    (∀ a : AnnounceFields, s.waits f rest (.announce src a) → 
        a.state = 0 ∨ a.state = 7 ∨ a.cause = 3 ∨
          (∃ e : Element, a.mask.getLsbD e.val = true ∧ (a.descriptors.get e).extractLsb' 0 2 = 3) →
      exec (.announce src a) s = .next counted) ∧
    (∀ i : IndicationFields, s.waits f rest (.indication src i) → s.pair.runMark = true → i.sense = 3 →
      exec (.indication src i) s = .next counted)

/-- A peer's INDICATION outside a run serves for liveness only. In a run, a CONFIRMED or LATE notice removes the own
entry it names and the sender's earlier notice of the same sequence, and stores nothing (R130, R131). That outside a
run a sense 3 is not counted either is the model's reading (assumption log 8). -/
def Obligations.PairedNoticeRemovesWhatItNames : Prop :=
  ∀ (src : BitVec 4) (i : IndicationFields) (f : Frame) (rest : List Frame) (s : State),
    s.waits f rest (.indication src i) →
    let u := s.takeHead f.source
    (s.pair.runMark = false → exec (.indication src i) s = .next u) ∧
    (s.pair.runMark = true → i.sense ≠ 3 → i.state = 1 ∨ i.state = 3 →
      exec (.indication src i) s = .next { u with pair := { u.pair with
        own := if i.refAddress = s.control.address then
            s.pair.own.filter fun o => o.indication.sequence != i.refSequence.toNat
          else s.pair.own
        notices := s.pair.notices.filter fun n => !(n.sender == src && n.sequence == i.sequence.toNat) } })

/-- A FIRST or SOLE notice that matches an own entry settles with the nearest one, the earliest among equals: it
leaves the own pairing list, and, when the own address is above the sender's, a LATE notice of that entry's
indication, in every field, that refers to the peer's notice is queued, or dropped and counted at a full transmit
queue, while below it nothing is sent. They match when rail, key and class are the same, the key is not 0, the senses
complete each other, and X and, of class ECHO, depth lie within their windows. One that matches none is stored when an
own enabled element on the rail has its key, the complementary sense and, for class BWL, gate B, and is not stored
otherwise: in place of a stored one of the same sender and sequence, keeping that one's place and arrival travel, or
at the end, with a full list evicting and counting its head (R116, R117, R123, R129, R132, R133, R148). -/
def Obligations.UnpairedNoticeSettlesOrIsStored : Prop :=
  ∀ (src : BitVec 4) (i : IndicationFields) (sense : Sense) (f : Frame) (rest : List Frame) (s : State),
    s.waits f rest (.indication src i) → s.pair.runMark = true → senseOf i.sense = some sense →
    i.state = 0 ∨ i.state = 2 →
    let u := s.takeHead f.source
    let n : PeerNotice :=
      { sender := src, sequence := i.sequence.toNat, element := Fin.ofNat 8 i.element.toNat, rail := railOf i.rail,
        key := i.key.toNat, sense := sense, sole := i.state == 2, x := i.x.toInt,
        depth := if i.bwl then none else some i.size.toNat, arrival := s.odo.travel }
    let fits : OwnEntry → Prop := fun o => o.indication.matched s.station n
    let apart : OwnEntry → Nat := fun o => (o.indication.x - n.x).natAbs
    (∀ o ∈ s.pair.own, fits o →
      ∃ before best after, s.pair.own = before ++ best :: after ∧ fits best ∧
        (∀ x ∈ before, fits x → apart best < apart x) ∧ (∀ x ∈ after, fits x → apart best ≤ apart x) ∧
        (let settled : State := { u with pair := { u.pair with own := before ++ after } }
         (s.control.address ≤ src → exec (.indication src i) s = .next settled) ∧
         (src < s.control.address → s.hasRoomFor 1 → ∃ late,
           late.indicates s.control.address best.indication (.late src n.sequence) ∧
           exec (.indication src i) s = .next { settled with link := u.link.queueing [late] }) ∧
         (src < s.control.address → 24 ≤ s.link.txQueue.length →
           exec (.indication src i) s = .next (settled.dropping { s.link.drops with
             indication := min (s.link.drops.indication + 1) 65535 })))) ∧
    ((∀ o ∈ s.pair.own, ¬ fits o) → ¬ s.awaits n → exec (.indication src i) s = .next u) ∧
    ((∀ o ∈ s.pair.own, ¬ fits o) → s.awaits n →
      ((∀ m ∈ s.pair.notices, ¬ (m.sender = src ∧ m.sequence = i.sequence.toNat)) →
        exec (.indication src i) s = .next { u with pair := { u.pair with
          notices := if s.pair.notices.length < 32 then s.pair.notices ++ [n] else s.pair.notices.tail ++ [n]
          lost := if s.pair.notices.length < 32 then s.pair.lost else min (s.pair.lost + 1) 65535 } }) ∧
      ((∃ m ∈ s.pair.notices, m.sender = src ∧ m.sequence = i.sequence.toNat) →
        exec (.indication src i) s = .next { u with pair := { u.pair with
          notices := s.pair.notices.map fun m =>
            if m.sender = src ∧ m.sequence = i.sequence.toNat then { n with arrival := m.arrival } else m } }))

/-- A peer's GAP notice opens or closes the gap marks of its mask in the sender's entry and in no other (R121). -/
def Obligations.GapNoticeSetsTheMarks : Prop :=
  ∀ (src : BitVec 4) (g : GapFields) (f : Frame) (rest : List Frame) (s : State),
    s.waits f rest (.gap src g) → g.cause ≠ 6 → g.cause ≠ 7 →
    ∃ peers, exec (.gap src g) s = .next
        { s.takeHead f.source with pair := { (s.takeHead f.source).pair with peers := peers } } ∧
      peers.length = s.pair.peers.length ∧
      ∀ (k : Nat) (q : Peer), s.pair.peers[k]? = some q →
        (q.address ≠ src → peers[k]? = some q) ∧
        (q.address = src → ∃ r, peers[k]? = some r ∧
          r = { q with element := r.element, live := true, lastHeard := s.odo.travel } ∧
          ∀ e : Element, r.element.get e =
            { q.element.get e with
              gapOpen := if g.mask.getLsbD e.val then !g.close else (q.element.get e).gapOpen })

/-- SPAN, FAULT and STATUS notices of peers serve for liveness only; a frame of an unknown kind does too and is counted
UNKNOWN (R121, R153). -/
def Obligations.OtherNoticesServeForLiveness : Prop :=
  ∀ (src : BitVec 4) (f : Frame) (rest : List Frame) (s : State),
    let u := s.takeHead f.source
    (∀ p, s.waits f rest (.span src p) → exec (.span src p) s = .next u) ∧
    (∀ p, s.waits f rest (.fault src p) → exec (.fault src p) s = .next u) ∧
    (∀ p, s.waits f rest (.status src p) → exec (.status src p) s = .next u) ∧
    (∀ kind payload, s.waits f rest (.unknownKind src kind payload) →
      exec (.unknownKind src kind payload) s = .next { u with link := { u.link with counts := { u.link.counts with
        unknown := min (u.link.counts.unknown + 1) 65535 } } })

/-- A frame row whose frame does not wait at the head: an INACTIVE receiver hears nothing; otherwise, from another
sender and for this station, with the receive queue empty and its block ready, it is counted RECEIVED and worked as if
it had waited. The model's reading of a frame row (assumption log 9). -/
def Obligations.FrameRowsStandForTheirFrames : Prop :=
  ∀ (c : Instr) (f : Frame) (s : State), commandFrame c = some f → c.wellFormed = true → s.link.rxQueue = [] →
    (s.link.rx = .inactive → exec c s = .next s) ∧
    (s.link.rx ≠ .inactive → f.source ≠ s.control.address →
      (f.isRequest = true → destinationIncludes (byteAt f.payload 0) s.control.address s.control.rail = true) →
      (f.toControl = true → s.control.runEndPending = false) →
      exec c s = exec c { s with link := { s.link with
        rxQueue := [f]
        counts := { s.link.counts with received := min (s.link.counts.received + 1) 65535 } } })

/-! ## The line -/

/-- A notice that is queued goes to the tail while fewer than 24 frames wait: an IDLE transmitter then starts at once
on a line that is idle with no pulse on it, and waits otherwise, and any other stays as it is; nothing else changes.
With 24 queued the notice is dropped and counted by its kind (State.dropping says what else that leaves) (R142, R148,
R149). LINE_IDLE while the receiver seeks or holds an idle line with no pulse on it: the receiver is IDLE, SILENCED
ends, and a frame that waits starts unless the line is found dominant, which then carries a pulse that begins now;
nothing else changes (R138, R142, R147). That an already IDLE receiver acts on the command, and that INACTIVE and
FRAME receivers and a line with a pulse on it do not, is the model's reading of a command whose event cannot occur
(assumption log 6); that a line found dominant carries a pulse that begins at that moment, and that a notice queued
under a pulse on an idle line waits, is the model's choice (assumption log 15). -/
def Obligations.QueuedFramesStartOnAnIdleLine : Prop :=
  (∀ (f : Frame) (s : State),
    (s.hasRoomFor 1 → s.append f = { s with link := s.link.queueing [f] }) ∧
    (24 ≤ s.link.txQueue.length →
      let d := s.link.drops
      s.append f = s.dropping
        (if f.kind = Kind.indication then { d with indication := min (d.indication + 1) 65535 }
         else if f.kind = Kind.gap then { d with gap := min (d.gap + 1) 65535 }
         else if f.kind = Kind.span then { d with span := min (d.span + 1) 65535 }
         else { d with other := min (d.other + 1) 65535 }))) ∧
  ∀ (dominant : Bool) (s : State),
    (s.link.rx = .seeking ∨ s.link.rx = .idle → s.link.pulse = none →
      exec (.lineIdle dominant) s = .next { s with link := { s.link with
        rx := .idle, quiet := 2000, pulse := if dominant then some 0 else none
        tx :=
          if s.link.tx = .silenced ∧ s.link.txQueue = [] then .idle
          else if s.link.tx = .waiting ∨ s.link.tx = .backedOff ∨ s.link.tx = .silenced then
            if dominant = false then .sending else if s.link.tx = .silenced then .waiting else s.link.tx
          else s.link.tx } }) ∧
    (s.link.rx = .inactive ∨ (∃ bits cut, s.link.rx = .frame bits cut) ∨ s.link.pulse ≠ none →
      exec (.lineIdle dominant) s = .next s)

/-- FRAME_END of an own frame heard back bit for bit: SENT is counted, the frame leaves the head of the queue, the
transmitter waits with the next frame or is IDLE, the queue falling to 12 clears the TXQ_FULL mark, and the frame is
neither RECEIVED nor queued (R139, R145, R149). -/
def Obligations.OwnFrameHeardBackIsSent : Prop :=
  ∀ (own : Frame) (rest : List Frame) (cut : Option Nat) (s : State),
    s.link.tx = .sending → s.link.txQueue = own :: rest → s.link.rx = .frame own.bits cut → s.link.pulse = none →
    exec .frameEnd s = .next
      { s with
        link := { s.link with
          rx := .seeking
          quiet := max s.link.quiet 600
          txQueue := rest
          tx := if rest = [] then .idle else .waiting
          counts := { s.link.counts with sent := min (s.link.counts.sent + 1) 65535 } }
        control := { s.control with episodes := { s.control.episodes with
          txqFull := if rest.length = 12 then false else s.control.episodes.txqFull } } }

/-- FRAME_END of another participant's frame, in the order of the checks: a bad shape or length counts RX_FORM, a bad
CRC counts RX_CRC, a request for others counts RECEIVED alone, a good frame for this station is counted RECEIVED and
enters the receive queue, and with four frames waiting it is counted OVERRUN instead and discarded; an overrun that
finds the RXQ_OVERRUN mark clear sets it and files an RXQ_OVERRUN record, whose FAULT notice is queued (R139, R151,
R152, R172, R174). With a pulse on the line the command changes nothing: the model's reading of an event that cannot
occur (assumption log 6). -/
def Obligations.ReceivedFramesAreJudged : Prop :=
  (∀ s : State, s.link.pulse ≠ none → exec .frameEnd s = .next s) ∧
  ∀ (bits : List Bool) (s : State), s.link.tx ≠ .sending → s.link.rx = .frame bits none → s.link.pulse = none →
    let ended : Link := { s.link with rx := .seeking, quiet := max s.link.quiet 600 }
    (judgeBits bits = .badShape ∨ judgeBits bits = .badLength →
      exec .frameEnd s = .next { s with link := { ended with counts := { s.link.counts with
        rxForm := min (s.link.counts.rxForm + 1) 65535 } } }) ∧
    (judgeBits bits = .badCrc →
      exec .frameEnd s = .next { s with link := { ended with counts := { s.link.counts with
        rxCrc := min (s.link.counts.rxCrc + 1) 65535 } } }) ∧
    ∀ f, judgeBits bits = .good f → f.source ≠ s.control.address →
      let received : Outcomes := { s.link.counts with received := min (s.link.counts.received + 1) 65535 }
      (f.isRequest = true → destinationIncludes (byteAt f.payload 0) s.control.address s.control.rail = false →
        exec .frameEnd s = .next { s with link := { ended with counts := received } }) ∧
      (f.isRequest = false ∨ destinationIncludes (byteAt f.payload 0) s.control.address s.control.rail = true →
        (s.link.rxQueue.length < 4 →
          exec .frameEnd s = .next { s with link := { ended with
            counts := received, rxQueue := s.link.rxQueue ++ [f] } }) ∧
        (s.link.rxQueue.length = 4 → s.control.episodes.rxqOverrun = true →
          exec .frameEnd s = .next { s with link := { ended with
            counts := { received with overrun := min (s.link.counts.overrun + 1) 65535 } } }) ∧
        (s.link.rxQueue.length = 4 → s.control.episodes.rxqOverrun = false → s.control.faults.overflow = false →
          s.control.faults.records.length < 8 → s.hasRoomFor 1 →
          let record : FaultRecord :=
            { kind := .rxqOverrun, arg := 0, position := if s.control.state.inRun then some s.currentX else none,
              runNumber := s.control.runNumber,
              index := min (s.control.faults.firstIndex + s.control.faults.records.length) 65535 }
          ∃ g, g.reports s.control.address record ∧ exec .frameEnd s = .next { s with
            link := Link.queueing { ended with
              counts := { received with overrun := min (s.link.counts.overrun + 1) 65535 } } [g]
            control := { s.control with
              episodes := { s.control.episodes with rxqOverrun := true }
              faults := { s.control.faults with records := s.control.faults.records ++ [record] } } }))

/-- FRAME_END of a good frame that carries the own address: an address clash, counted RECEIVED, discarded, and recorded
with the address (R150, R172). -/
def Obligations.OwnAddressFromAnotherIsAClash : Prop :=
  ∀ (bits : List Bool) (f : Frame) (s : State), s.link.tx ≠ .sending → s.link.rx = .frame bits none →
    s.link.pulse = none → judgeBits bits = .good f → f.source = s.control.address →
    s.control.faults.overflow = false → s.control.faults.records.length < 8 → s.hasRoomFor 1 →
    let record : FaultRecord :=
      { kind := .addressClash, arg := f.source, position := if s.control.state.inRun then some s.currentX else none,
        runNumber := s.control.runNumber,
        index := min (s.control.faults.firstIndex + s.control.faults.records.length) 65535 }
    ∃ g, g.reports s.control.address record ∧ exec .frameEnd s = .next
      { s with
        link := Link.queueing { s.link with
          rx := .seeking
          quiet := max s.link.quiet 600
          counts := { s.link.counts with received := min (s.link.counts.received + 1) 65535 } } [g]
        control := { s.control with faults := { s.control.faults with
          records := s.control.faults.records ++ [record] } } }

/-- ARBITRATION_LOST: a 0 heard where the part drives a 1 in the first 16 bits backs the transmitter off, counts LOST,
keeps the frame and lets the receiver go on with the winner's bits (R143). TRANSMIT_ERROR: a wrong bit anywhere else,
or a pulse that is no bit, drops the frame and counts TX_ERROR and not RX_FORM, and so does a line broken open at a 0
that is not heard, its lead mark heard before or not; once every 0 has been heard, nothing heard is no error (R136,
R139, R144). What the receiver keeps of a frame dropped, which silence is an error, and that a pulse that is no bit is
an error after the last bit of the frame too, are the model's reading (assumption log 11). A pulse already on the line
stands in the way only when it has lasted too long for what is heard (assumption log 15). -/
def Obligations.ContentionIsLostOrDropped : Prop :=
  ∀ (own : Frame) (rest : List Frame) (bits : List Bool) (cut : Option Nat) (s : State),
    s.link.tx = .sending → s.link.txQueue = own :: rest → s.link.rx = .frame bits cut →
    let held := 20 * s.link.pulse.getD 0
    let dropped : Link := { s.link with
      quiet := 0, pulse := none, txQueue := rest, tx := if rest = [] then .idle else .waiting
      counts := { s.link.counts with txError := min (s.link.counts.txError + 1) 65535 } }
    let marks : Control := { s.control with episodes := { s.control.episodes with
      txqFull := if rest.length = 12 then false else s.control.episodes.txqFull } }
    (bits.length < 16 → own.bits[bits.length]? = some true → held < 5000 →
      exec .arbitrationLost s = .next { s with link := { s.link with
        rx := .frame (bits ++ [false]) cut, tx := .backedOff, quiet := 0, pulse := none
        counts := { s.link.counts with lost := min (s.link.counts.lost + 1) 65535 } } }) ∧
    (∀ b d : Bool, own.bits[bits.length]? = some d → b ≠ d → d = false ∨ 16 ≤ bits.length →
      held < (if b then 2000 else 5000) →
      exec (.transmitError (.bit b)) s = .next
        { s with control := marks, link := { dropped with rx := .frame (bits ++ [b]) (some (bits.length + 1)) } }) ∧
    (∀ ns, 5000 ≤ ns → ns < 100000 → held < 100000 →
      exec (.transmitError (.pulse ns)) s = .next { s with control := marks, link := { dropped with rx := .seeking } }) ∧
    (s.link.pulse = none → own.bits[bits.length]? = some false →
      exec (.transmitError .nothing) s = .next
        { s with control := marks, link := { dropped with
            quiet := s.link.quiet, rx := .frame bits (some bits.length) } }) ∧
    (∀ u : State, u.link.tx = .sending → u.link.txQueue = own :: rest → u.link.rx = .idle → u.link.pulse = none →
      false ∈ own.bits →
      exec (.transmitError .nothing) u = .next
        { u with
          control := { u.control with episodes := { u.control.episodes with
            txqFull := if rest.length = 12 then false else u.control.episodes.txqFull } }
          link := { u.link with
            txQueue := rest, tx := if rest = [] then .idle else .waiting
            counts := { u.link.counts with txError := min (u.link.counts.txError + 1) 65535 } } }) ∧
    ((∀ k, bits.length ≤ k → own.bits[k]? ≠ some false) → exec (.transmitError .nothing) s = .next s)

/-- HALT_SYMBOL, the release of a pulse of 100 µs to 2 ms, which has lasted no less than the pulse already standing on
the line (that part of its length is the model's choice, assumption log 15): recognised in every receiver state but
INACTIVE; the receiver seeks idle line, a SENDING transmitter counts ABORTED and waits with its frame, and a
transmitter that waits, is backed off or silenced stays as it is. A RUNNING, LIFTED or STILL station is HALTED: the
scheduler is OFF with the high voltage off, the chains are discarded and counted, and in an active account every run
and loss record is dropped and every enabled element carries the cause HALTED, those whose gap opens in one GAP OPEN
at the current car position, their gap start, with STATUS page 0 after it; a chain discarded clears the CHAIN_FULL
mark; in every other station state nothing more happens (R34, R68, R74, R103, R105, R112, R137, R142, R146, R165,
R169). -/
def Obligations.HaltSymbolAbortsAndHalts : Prop :=
  ∀ (ns : Nat) (s : State), s.link.rx ≠ .inactive →
    100000 ≤ max ns (20 * s.link.pulse.getD 0) → max ns (20 * s.link.pulse.getD 0) ≤ 2000000 →
    let heard : Link := { s.link with
      rx := .seeking, quiet := 0, pulse := none
      tx := if s.link.tx = .sending then .waiting else s.link.tx
      counts := if s.link.tx = .sending then
          { s.link.counts with aborted := min (s.link.counts.aborted + 1) 65535 }
        else s.link.counts }
    (s.control.state.inRun = false → exec (.haltSymbol (.released ns)) s = .next { s with link := heard }) ∧
    (s.inRun → ∃ t, exec (.haltSymbol (.released ns)) s = .next t ∧
      t.control.state = .halted ∧ t.control.enableMask = s.control.enableMask ∧
      t.sched = { s.sched with state := .off } ∧ t.pulser = { s.pulser with hv := .off } ∧
      t.tracker = { s.tracker with
        chains := [], inFlight := none, discarded := min (s.tracker.discarded + s.tracker.chains.length) 65535 } ∧
      (s.cover.accounting = .active → ∀ e : Element,
        (t.cover.element.get e).run = none ∧ (t.cover.element.get e).backWall = .present ∧
        (s.control.enableMask.get e = true → (t.cover.element.get e).causes.halted = true) ∧
        (s.control.enableMask.get e = true → (s.cover.element.get e).causes.nonempty = false →
          (t.cover.element.get e).gapStart = some s.currentX) ∧
        ((s.cover.element.get e).causes.nonempty = true →
          (t.cover.element.get e).gapStart = (s.cover.element.get e).gapStart)) ∧
      t.control.episodes.chainFull = (s.control.episodes.chainFull && s.tracker.chains.isEmpty) ∧
      (s.hasRoomFor 2 → ∃ gaps f, s.opensGaps 2 gaps ∧ f.showsState .halted ∧
        t.link = heard.queueing (gaps ++ [f])) ∧
      t.link.rx = .seeking ∧ t.link.counts = heard.counts ∧ t.link.rxQueue = s.link.rxQueue ∧
      (s.link.tx = .sending → t.link.tx = .waiting) ∧
      (s.link.tx ≠ .sending → s.link.tx ≠ .idle → t.link.tx = s.link.tx) ∧
      (∃ more, t.link.txQueue = s.link.txQueue ++ more) ∧
      t.judge = s.judge ∧ t.pair = s.pair ∧ t.odo = s.odo ∧ s.sameSetup t)

/-- STUCK_LINE: when a pulse passes 2 ms the transmitter is SILENCED with its frame kept, ABORTED counted when it was
SENDING, the receiver discards what it was collecting and seeks idle line, and a LINK_STUCK fault is recorded; a line
that is still stuck reports nothing new. The release of such a pulse, given by WAIT_FOR_IDLE_RESTART, does the same
where its passing was not given, and starts the wait for idle line (R137, R138, R147, R172; that row as the one that
gives the release is the model's, assumption log 15). -/
def Obligations.StuckLineSilencesTheTransmitter : Prop :=
  ∀ (c : Instr) (sought : Link) (s : State), s.link.rx ≠ .inactive →
    (c = .stuckLine ∧ sought = { s.link with rx := .seeking, pulse := some 100001 }) ∨
      (∃ ns, c = .waitForIdleRestart (.released ns) ∧ 2000000 < max ns (20 * s.link.pulse.getD 0) ∧
        sought = { s.link with rx := .seeking, pulse := none, quiet := 0 }) →
    (s.link.tx = .silenced → exec c s = .next { s with link := sought }) ∧
    (s.link.tx ≠ .silenced → s.control.faults.overflow = false → s.control.faults.records.length < 8 →
      s.hasRoomFor 1 →
      let record : FaultRecord :=
        { kind := .linkStuck, arg := 0, position := if s.control.state.inRun then some s.currentX else none,
          runNumber := s.control.runNumber,
          index := min (s.control.faults.firstIndex + s.control.faults.records.length) 65535 }
      ∃ g, g.reports s.control.address record ∧ exec c s = .next
        { s with
          link := { sought with
            tx := .silenced
            txQueue := s.link.txQueue ++ [g]
            counts := if s.link.tx = .sending then
                { s.link.counts with aborted := min (s.link.counts.aborted + 1) 65535 }
              else s.link.counts }
          control := { s.control with faults := { s.control.faults with
            records := s.control.faults.records ++ [record] } } })

/-- Dominant pulses by their length and the receiver's state. The beginning of a pulse, on whichever row, puts it on
the line and does nothing else, and while it stands there the line is not recessive: a tick lengthens the pulse and
leaves the recessive time, and takes from a receiver in FRAME what it has collected once the pulse has lasted 5 µs. A
SENDING transmitter stops driving its frame at that moment, and in IDLE once the pulse has lasted more than 12 µs,
since no bit and no lead mark is so long; its state stands until the release says whether that was a transmit error or
an abort. At its release noise is counted and nothing else, the time it stood counting as recessive; 8 to 12 µs in
IDLE begin a frame, a SENDING transmitter's own among them; a pulse below the halt length in SEEKING restarts the wait
uncounted; a pulse of the wrong length in IDLE or FRAME makes the receiver seek idle line and counts RX_FORM, but not
in FRAME for a frame of the own transmitter or one it has stopped; and a SENDING transmitter drops its frame, counts
TX_ERROR, and waits with the next or is IDLE. An INACTIVE receiver hears nothing (R136 to R139, R141, R144, R149,
Table 8-2; the beginning as an operand of the rows is the model's, assumption log 15). That a wrong pulse in place of
the own lead mark counts both RX_FORM and TX_ERROR is the model's reading (assumption log 11), and so is the moment of
the stop (assumption log 15). -/
def Obligations.PulsesActByLengthAndState : Prop :=
  (∀ (s : State) (c : Pulse → Instr),
    c ∈ [Instr.haltSymbol, Instr.noisePulse, Instr.formError, Instr.leadMark, Instr.bitReceived,
      Instr.waitForIdleRestart] →
    (s.link.rx = .inactive → ∀ p, exec (c p) s = .next s) ∧
    (s.link.rx ≠ .inactive → exec (c .begins) s = .next { s with link := { s.link with
      pulse := some (s.link.pulse.getD 0) } })) ∧
  (∀ (s : State) (held : Nat), s.link.rx ≠ .inactive → s.link.pulse = some held →
    s.tick.link.pulse = some (min (held + 1) 100001) ∧ s.tick.link.quiet = s.link.quiet ∧
    s.tick.link.tx = s.link.tx ∧
    (held + 1 < 250 → s.tick.link.rx = s.link.rx) ∧
    (∀ bits cut, 250 ≤ held + 1 → s.link.rx = .frame bits cut →
      s.tick.link.rx = .frame [] (if s.link.tx = .sending then some 0 else cut) ∧ s.tick.link.driving = false) ∧
    (s.link.tx = .sending → s.link.rx = .idle → (s.tick.link.driving = true ↔ held + 1 ≤ 600)) ∧
    (∀ bits, s.link.tx = .sending → s.link.rx = .frame bits none → held + 1 < 250 →
      (s.tick.link.driving = true ↔ bits.length < s.link.ownBits.length))) ∧
  ∀ (ns : Nat) (s : State),
    let long := max ns (20 * s.link.pulse.getD 0)
    let released : Link := { s.link with quiet := 0, pulse := none }
    let rest := s.link.txQueue.tail
    let form : Prop := (s.link.rx = .idle ∧ (500 ≤ long ∧ long < 8000 ∨ 12000 < long ∧ long < 100000)) ∨
      ((∃ bits cut, s.link.rx = .frame bits cut) ∧ 5000 ≤ long ∧ long < 100000)
    let counts : Outcomes :=
      match s.link.rx with
      | .frame _ (some _) => s.link.counts
      | .frame _ none =>
        if s.link.tx = .sending then s.link.counts
        else { s.link.counts with rxForm := min (s.link.counts.rxForm + 1) 65535 }
      | _ => { s.link.counts with rxForm := min (s.link.counts.rxForm + 1) 65535 }
    (s.link.rx ≠ .inactive → long < 500 →
      exec (.noisePulse (.released ns)) s = .next { s with link := { s.link with
        pulse := none
        quiet := match s.link.pulse with
          | none => s.link.quiet
          | some held => min (s.link.quiet + held) 2000
        counts := { s.link.counts with noise := min (s.link.counts.noise + 1) 65535 } } }) ∧
    (s.link.rx = .idle → 8000 ≤ long → long ≤ 12000 →
      exec (.leadMark (.released ns)) s = .next { s with link := { released with rx := .frame [] none } }) ∧
    (s.link.rx = .seeking → 500 ≤ long → long < 100000 →
      exec (.waitForIdleRestart (.released ns)) s = .next { s with link := released }) ∧
    (form → s.link.tx ≠ .sending →
      exec (.formError (.released ns)) s = .next { s with link := { released with rx := .seeking, counts := counts } }) ∧
    (form → s.link.tx = .sending →
      exec (.formError (.released ns)) s = .next { s with
        link := { released with
          rx := .seeking
          txQueue := rest
          tx := if rest = [] then .idle else .waiting
          counts := { counts with txError := min (counts.txError + 1) 65535 } }
        control := { s.control with episodes := { s.control.episodes with
          txqFull := if rest.length = 12 then false else s.control.episodes.txqFull } } })

/-- BIT_RECEIVED in FRAME: a mark below 2 µs is a 1 and one of 2 to under 5 µs a 0, collected at the end of what was
heard; a SENDING transmitter that drove the same bit goes on, one that drove a 1 and hears a 0 in the first 16 bits
has lost arbitration, and at any other difference it drops its frame and counts TX_ERROR, the frame heard being marked
as one it stopped (R137, R138, R143, R144, R149). A mark has lasted no less than the pulse already standing on the
line: that part of its length is the model's choice (assumption log 15); that a bit heard after the last bit of the
own frame differs from it is the model's reading (assumption log 11). -/
def Obligations.BitsAreCollectedAndCompared : Prop :=
  ∀ (ns : Nat) (bits : List Bool) (cut : Option Nat) (s : State), s.link.rx = .frame bits cut →
    let long := max ns (20 * s.link.pulse.getD 0)
    500 ≤ long → long < 5000 →
    let b : Bool := decide (long < 2000)
    let driven := s.link.ownBits[bits.length]?
    let collected : Link := { s.link with rx := .frame (bits ++ [b]) cut, quiet := 0, pulse := none }
    let rest := s.link.txQueue.tail
    (s.link.tx ≠ .sending ∨ driven = some b →
      exec (.bitReceived (.released ns)) s = .next { s with link := collected }) ∧
    (s.link.tx = .sending → driven = some true → b = false → bits.length < 16 →
      exec (.bitReceived (.released ns)) s = .next { s with link := { collected with
        tx := .backedOff, counts := { s.link.counts with lost := min (s.link.counts.lost + 1) 65535 } } }) ∧
    (s.link.tx = .sending → driven ≠ some b → driven ≠ some true ∨ 16 ≤ bits.length →
      exec (.bitReceived (.released ns)) s = .next { s with
        link := { collected with
          rx := .frame (bits ++ [b]) (some (bits.length + 1))
          txQueue := rest
          tx := if rest = [] then .idle else .waiting
          counts := { s.link.counts with txError := min (s.link.counts.txError + 1) 65535 } }
        control := { s.control with episodes := { s.control.episodes with
          txqFull := if rest.length = 12 then false else s.control.episodes.txqFull } } })

/-- The destination of a request (R151): the station's own address, its rail's code or 0xFF include it, every other
code does not; a request that does not include it leaves RECEIVED counted and enters no queue; notices and frames of
an unknown kind carry no destination and pass. -/
def Obligations.DestinationsIncludeTheStation : Prop :=
  ∀ (address : BitVec 4) (rail : Rail),
    (∀ dest : Byte, destinationIncludes dest address rail = true ↔
      dest.toNat = address.toNat ∨ (dest.toNat = 0x80 ∧ rail = .left) ∨ (dest.toNat = 0x81 ∧ rail = .right) ∨
        dest.toNat = 0xFF) ∧
    (∀ dest : Byte, 16 ≤ dest.toNat ∧ dest.toNat ≤ 127 ∨ 0x82 ≤ dest.toNat ∧ dest.toNat ≤ 0xFE →
      destinationIncludes dest address rail = false) ∧
    (∀ (f : Frame) (s : State), s.control.address = address → s.control.rail = rail → f.source ≠ address →
      (f.isRequest = true → destinationIncludes (byteAt f.payload 0) address rail = false →
        s.acceptGood f = s.count Outcomes.countReceived) ∧
      (f.isRequest = false → s.acceptGood f = (s.count Outcomes.countReceived).enterQueue f)) ∧
    (∀ f : Frame, f.isRequest = true ↔
      f.kind = Kind.halt ∨ f.kind = Kind.stop ∨ f.kind = Kind.run ∨ f.kind = Kind.zone ∨ f.kind = Kind.flush ∨
        f.kind = Kind.clear ∨ f.kind = Kind.query)

/-! ## Echoes, chains, indications and gaps -/

/-- One trace worked. Gate I: the first run at or above the coupling level gives the interface, its time the first
sample that holds the run's maximum; later runs play no part; with no sample at the level the reference time is the
nominal delay and the amplitude the gate's greatest. The gate A level is the curve through the points, constant before
the first and after the last, truncated toward zero between. Gate A: the echoes are the runs of samples at or above
their levels, each followed by the dead zone in which nothing is examined, one that stands above the level at the dead
zone's end beginning there; each has the first sample of its maximum as its time, and its path by the path scale; the
first three are delivered and the rest counted as excess. Gate B: with B enable set the back-wall is present exactly
when some sample of the gate is at or above its level, an empty gate finds it absent, whether or not the interface was
found; with B enable clear there is no finding (R42 to R51, R53, R54). A sample that the trace given does not reach
counts as 0: the model's choice for a trace shorter than its window (assumption log 14). -/
def Obligations.TracesGiveTheirShotResults : Prop :=
  (∀ (points : List ThresholdPoint), points.Pairwise (fun p q => p.u < q.u) →
    (∀ p ∈ points, thresholdLevel p.u points = p.level) ∧
    (∀ (p : ThresholdPoint) (rest : List ThresholdPoint) (u : Nat), points = p :: rest → u ≤ p.u →
      thresholdLevel u points = p.level) ∧
    (∀ (before : List ThresholdPoint) (p : ThresholdPoint) (u : Nat), points = before ++ [p] → p.u ≤ u →
      thresholdLevel u points = p.level) ∧
    (∀ (before after : List ThresholdPoint) (p q : ThresholdPoint) (u : Nat), points = before ++ p :: q :: after →
      p.u < u → u < q.u →
      thresholdLevel u points =
        p.level + Int.tdiv (((q.level : Int) - p.level) * ((u : Int) - p.u)) ((q.u : Int) - p.u))) ∧
  ∀ (c : ElementSection) (e : Element) (shot : Shot) (trace : List Byte),
    let samples := traceSamples c.window trace
    let amp : Nat → Nat := fun t => (byteAt trace t).toNat
    let i := gateI c samples
    let inI : Nat → Prop := fun t => c.iStart ≤ t ∧ t ≤ c.iEnd ∧ t < c.window
    let inA : Nat → Prop := fun u => c.aStart ≤ u ∧ u ≤ c.aEnd ∧ i.tRef + u < c.window
    let reaches : Nat → Prop := fun u =>
      inA u ∧ thresholdLevel u (c.points.take c.pointCount) ≤ (amp (i.tRef + u) : Int)
    let gate := gateSamples samples i.tRef c.bStart c.bEnd
    let r := (workTrace c e shot trace).1
    let excess := (workTrace c e shot trace).2
    (r.element = e ∧ r.travel = shot.travel ∧ r.pos = shot.pos ∧ r.found = i.found) ∧
    ((∀ t, inI t → amp t < c.couplingLevel) →
      i.found = false ∧ i.tRef = c.nominalDelay ∧ (∀ t, inI t → amp t ≤ i.amp) ∧
      ((∃ t, inI t ∧ amp t = i.amp) ∨ ((∀ t, ¬ inI t) ∧ i.amp = 0))) ∧
    (∀ a, inI a → c.couplingLevel ≤ amp a → (∀ t, inI t → t < a → amp t < c.couplingLevel) →
      i.found = true ∧ a ≤ i.tRef ∧ amp i.tRef = i.amp ∧
      (∀ t, a ≤ t → t ≤ i.tRef → inI t ∧ c.couplingLevel ≤ amp t) ∧ (∀ t, a ≤ t → t < i.tRef → amp t < i.amp) ∧
      (∀ t, a ≤ t → (∀ u, a ≤ u → u ≤ t → inI u ∧ c.couplingLevel ≤ amp u) → amp t ≤ i.amp)) ∧
    (∃ spans : List (Nat × Nat),
      spans.Pairwise (fun p q => p.2 + c.deadZone ≤ q.1) ∧
      (∀ p ∈ spans, p.1 < p.2 ∧ (∀ u, p.1 ≤ u → u < p.2 → reaches u) ∧ ¬ reaches p.2) ∧
      (∀ u, reaches u → ∃ p ∈ spans, p.1 ≤ u ∧ u < p.2 + c.deadZone) ∧
      r.echoes.length = min 3 spans.length ∧ excess = spans.length - 3 ∧
      ∀ (k : Nat) (x : Echo) (p : Nat × Nat), r.echoes[k]? = some x → spans[k]? = some p →
        p.1 ≤ x.u ∧ x.u < p.2 ∧ amp (i.tRef + x.u) = x.amp ∧
        (∀ u, p.1 ≤ u → u < p.2 → amp (i.tRef + u) ≤ x.amp) ∧
        (∀ u, p.1 ≤ u → u < x.u → amp (i.tRef + u) < x.amp) ∧
        x.saturated = decide (x.amp = 255) ∧ x.path = (x.u * c.pathScale + 128) / 256) ∧
    (∀ a : Nat, (∃ x ∈ gate, x.amp = a) ↔
      ∃ u, c.bStart ≤ u ∧ u ≤ c.bEnd ∧ i.tRef + u < c.window ∧ a = amp (i.tRef + u)) ∧
    (c.bEnable = 1 →
      ((∃ x ∈ gate, c.backWallLevel ≤ x.amp) → r.backWall = some true) ∧
      ((∀ x ∈ gate, x.amp < c.backWallLevel) → r.backWall = some false) ∧
      (gate = [] → r.backWall = some false)) ∧
    (c.bEnable ≠ 1 → r.backWall = none)

/-- A shot result at the chain tracker. Each chain of the element is predicted once, from the chain as it stood before
the shot; the echoes are then dealt with in their order. An echo goes to the unclaimed chain whose prediction is
nearest, within the chain window, the oldest among equals, which is claimed by it; a chain that takes an echo has it
as its last observation, and as its peak when it is strictly greater. An echo no chain takes starts a chain with the
next creation number, claimed too, or, with 48 chains open, is dropped and counted; a drop that finds the CHAIN_FULL
mark clear sets it and files a CHAIN_FULL record with the element, whose FAULT notice is queued (R57, R62 to R68,
R172, R174). -/
def Obligations.EchoesFindTheirChains : Prop :=
  (∀ (r : ShotResult) (x : Echo) (c : Chain), c.count ≤ 255 →
    let n := takeEcho r x c
    n.lastTravel = r.travel ∧ n.lastPos = r.pos ∧ n.lastPath = x.path ∧
    n.count = (if c.count = 255 then 255 else c.count + 1) ∧
    (c.peak < x.amp → n.peak = x.amp ∧ n.peakPath = x.path ∧ n.peakPos = r.pos) ∧
    (x.amp ≤ c.peak → n.peak = c.peak ∧ n.peakPath = c.peakPath ∧ n.peakPos = c.peakPos) ∧
    (x.saturated = true ∨ c.saturated = true → n.saturated = true) ∧
    (x.saturated = false → c.saturated = false → n.saturated = false) ∧
    n.element = c.element ∧ n.number = c.number) ∧
  (∀ (r : ShotResult) (s : State),
    let nearest : Int → Int := fun v => if 0 ≤ v then (v + 8192) / 16384 else -((-v + 8192) / 16384)
    s.openFor r = (s.tracker.chains.filter fun c => c.element == r.element).map (fun c =>
      { number := c.number
        predicted := c.lastPath - nearest
          ((1000 * (r.pos.mm - c.lastPos.mm) + ((r.pos.um : Int) - c.lastPos.um)) * (s.elem r.element).sine) }) ∧
    (s.chainsInOrder → (s.openFor r).Pairwise fun a b => a.number < b.number) ∧
    s.assignResult r =
      (r.echoes.foldl (fun (acc : List Open × State) x => acc.2.assignEcho r x acc.1) (s.openFor r, s)).2) ∧
  ∀ (r : ShotResult) (x : Echo) (unclaimed : List Open) (s : State),
    let w := (s.elem r.element).chainWindow
    ((∃ o ∈ unclaimed, distance x.path o.predicted ≤ w) →
      ∃ before best after, unclaimed = before ++ best :: after ∧ distance x.path best.predicted ≤ w ∧
        (∀ o ∈ before, distance x.path best.predicted < distance x.path o.predicted) ∧
        (∀ o ∈ after, distance x.path best.predicted ≤ distance x.path o.predicted) ∧
        s.assignEcho r x unclaimed = (before ++ after, { s with tracker := { s.tracker with
          chains := s.tracker.chains.map fun c => if c.number = best.number then takeEcho r x c else c } })) ∧
    ((∀ o ∈ unclaimed, w < distance x.path o.predicted) →
      (s.tracker.chains.length < 48 →
        s.assignEcho r x unclaimed = (unclaimed, { s with tracker := { s.tracker with
          chains := s.tracker.chains ++
            [{ element := r.element, number := s.tracker.nextNumber, lastTravel := r.travel, lastPos := r.pos,
               lastPath := x.path, count := 1, peak := x.amp, peakPath := x.path, peakPos := r.pos,
               saturated := x.saturated }]
          nextNumber := s.tracker.nextNumber + 1 } })) ∧
      (48 ≤ s.tracker.chains.length →
        let counted : State := { s with tracker := { s.tracker with dropped := min (s.tracker.dropped + 1) 65535 } }
        (s.control.episodes.chainFull = true → s.assignEcho r x unclaimed = (unclaimed, counted)) ∧
        (s.control.episodes.chainFull = false → s.control.faults.overflow = false →
          s.control.faults.records.length < 8 → s.hasRoomFor 1 →
          let record : FaultRecord :=
            { kind := .chainFull, arg := BitVec.ofNat 4 r.element.val,
              position := if s.control.state.inRun then some s.currentX else none, runNumber := s.control.runNumber,
              index := min (s.control.faults.firstIndex + s.control.faults.records.length) 65535 }
          ∃ f, f.reports s.control.address record ∧
            s.assignEcho r x unclaimed = (unclaimed, { counted with
              link := s.link.queueing [f]
              control := { s.control with
                episodes := { s.control.episodes with chainFull := true }
                faults := { s.control.faults with records := s.control.faults.records ++ [record] } } }))))

/-- A closed chain at the judge: below its minimum length or report level it is counted rejected and reaches nobody; a
closed back-wall loss record of an extent below the back-wall minimum reaches nobody uncounted. Any other chain or
record makes an indication: an ECHO at the peak's car position with the along offset, with its depth in tenths of a
millimetre and its depth zone, or a BWL at the record's start X with its extent. In an enabled exclusion zone it is
counted suppressed and takes no number; else it takes the next sequence number, 1 following 65535, and goes to the
pairing unit (R14, R84 to R90, R92, R94, R95). -/
def Obligations.ClosedChainsAreJudged : Prop :=
  ∀ s : State,
    let nearest : Int → Int := fun v => if 0 ≤ v then (v + 8192) / 16384 else -((-v + 8192) / 16384)
    let inRange : Int → Int := fun v => max (-2147483648) (min 2147483647 v)
    let indicates : Element → Int → Body → State → Prop := fun e x body r =>
      ((∃ i, (s.judge.zones.get i).enabled = true ∧ (s.judge.zones.get i).base ≤ x ∧ x ≤ (s.judge.zones.get i).limit) →
        r = { s with judge := { s.judge with suppressed := min (s.judge.suppressed + 1) 65535 } }) ∧
      ((∀ i, (s.judge.zones.get i).enabled = true → x < (s.judge.zones.get i).base ∨ (s.judge.zones.get i).limit < x) →
        r = State.pairOwn
          { sequence := s.judge.nextSeq, element := e, rail := s.control.rail, key := (s.elem e).key,
            sense := if 0 < (s.elem e).sine then .forward else if (s.elem e).sine < 0 then .backward else .normal,
            x := x, body := body }
          { s with judge := { s.judge with
            nextSeq := if s.judge.nextSeq < 65535 then s.judge.nextSeq + 1 else 1 } })
    (∀ c : Chain,
      let e := s.elem c.element
      let x := inRange (c.peakPos.mm + s.station.mountOffset +
        (c.peakPos.um + nearest (c.peakPath * e.sine) + 500) / 1000)
      let depth := min ((nearest (c.peakPath * e.cosine) + 50) / 100).toNat 65535
      let zone : DepthZone :=
        if depth < 10 * s.station.b1 then .head else if depth < 10 * s.station.b2 then .web
        else if depth < 10 * s.station.b3 then .foot else .beyond
      (c.count < e.minLength ∨ c.peak < e.reportLevel →
        s.judgeChain c = { s with judge := { s.judge with rejected := min (s.judge.rejected + 1) 65535 } }) ∧
      (e.minLength ≤ c.count → e.reportLevel ≤ c.peak →
        indicates c.element x (.echo depth zone c.peak c.saturated c.count) (s.judgeChain c))) ∧
    ∀ (e : Element) (startX endX : Int),
      let extent := min (endX - startX).toNat 65535
      (extent < s.station.backWallMin → s.judgeLoss e startX endX = s) ∧
      (s.station.backWallMin ≤ extent → indicates e startX (.bwl extent) (s.judgeLoss e startX endX))

/-- An own indication at the pairing unit. Of key 0 it is SOLE, is in no list, and its notice is queued, and no peer
stores such a notice. Of another key it is CONFIRMED by the stored peer notice that matches it nearest, the earliest
among equals, which leaves the list and is named as its reference; with no match it is FIRST when a LIVE peer of the
own rail that is not UNCONFIGURED has an enabled element of the key and the complementary sense with no gap mark, SOLE
otherwise, and enters the own pairing list, in place of an entry of the same number, with a full list evicting its
head. They match when rail, key and class are the same, the key is not 0, the senses complete each other, and X and,
of class ECHO, depth lie within their windows. The notice carries every field of the indication with its outcome; at a
full transmit queue it is dropped and counted among the INDICATION drops, and the lists change as if it had been
queued. Nothing else changes (R116, R117, R122, R124, R126 to R129, R148). -/
def Obligations.OwnIndicationsTakeTheirOutcome : Prop :=
  (∀ (i : Indication) (s : State),
    let takes : Pairing → PairState → Prop := fun lists p =>
      (s.hasRoomFor 1 → ∃ f, f.indicates s.control.address i p ∧
        s.pairOwn i = { s with pair := lists, link := s.link.queueing [f] }) ∧
      (24 ≤ s.link.txQueue.length →
        s.pairOwn i = { s.dropping { s.link.drops with indication := min (s.link.drops.indication + 1) 65535 } with
          pair := lists })
    let fits : PeerNotice → Prop := fun n => i.matched s.station n
    let apart : PeerNotice → Nat := fun n => (i.x - n.x).natAbs
    (i.key = 0 → takes s.pair .sole) ∧
    (∀ m ∈ s.pair.notices, fits m →
      ∃ before best after, s.pair.notices = before ++ best :: after ∧ fits best ∧
        (∀ n ∈ before, fits n → apart best < apart n) ∧ (∀ n ∈ after, fits n → apart best ≤ apart n) ∧
        takes { s.pair with notices := before ++ after } (.confirmed best.sender best.sequence)) ∧
    (i.key ≠ 0 → (∀ m ∈ s.pair.notices, ¬ fits m) →
      let sine := (s.elem i.element).sine
      let partner : Prop := ∃ p ∈ s.pair.peers, p.live = true ∧ p.rail = s.control.rail ∧ p.state ≠ .unconfigured ∧
        ∃ j : Element, (p.element.get j).enabled = true ∧ (p.element.get j).gapOpen = false ∧
          (p.element.get j).key = (s.elem i.element).key ∧ (p.element.get j).key ≠ 0 ∧
          (p.element.get j).sense.completes (if 0 < sine then .forward else if sine < 0 then .backward else .normal)
      let kept := s.pair.own.filter fun o => o.indication.sequence != i.sequence
      ∃ sole : Bool, (sole = true ↔ ¬ partner) ∧
        takes { s.pair with own := (if kept.length < 16 then kept else kept.tail) ++ [⟨i, sole, s.odo.travel⟩] }
          (if sole then .sole else .first))) ∧
  ∀ (n : PeerNotice) (s : State), n.key = 0 → s.wantsNotice n = false

/-- Disabling an element, what station control does at a third bad fire (DueElementsFireAtTheSettle says when): the
element leaves the enable mask, every chain of it leaves the table, judged in creation order, and the others stay in
order, a freed entry clears the CHAIN_FULL mark, a PULSER record with the element and the car position is filed, and
in an active account its coupling run and loss record are dropped and it carries the cause PULSER, its gap opening at
the car position when it had no cause. After the notices of the chains, the record's FAULT notice is queued, and then
the GAP OPEN of a gap that opens (R36, R68, R70, R72, R101 to R103, R105, R110, R170, R172). -/
def Obligations.DisablingAnElementClosesItsChains : Prop :=
  ∀ (e : Element) (s : State), s.inRun → s.control.faults.overflow = false → s.control.faults.records.length < 8 →
    let gone := s.tracker.chains.filter fun c => c.element == e
    s.hasRoomFor (gone.length + 2) ∨ s.control.episodes.txqFull = true →
    let t := s.disableElement e
    let judged := gone.foldl (fun u c => u.judgeChain c) s
    let c := s.cover.element.get e
    let x := s.currentX
    let opens : Bool := decide (s.cover.accounting = .active) && !c.causes.nonempty
    let record : FaultRecord :=
      { kind := .pulser, arg := BitVec.ofNat 4 e.val, position := some x, runNumber := s.control.runNumber,
        index := min (s.control.faults.firstIndex + s.control.faults.records.length) 65535 }
    (∀ i, t.control.enableMask.get i = if i = e then false else s.control.enableMask.get i) ∧
    t.tracker = { s.tracker with chains := s.tracker.chains.filter fun c => c.element != e } ∧
    t.judge = judged.judge ∧ t.pair = judged.pair ∧
    t.control.faults = { s.control.faults with records := s.control.faults.records ++ [record] } ∧
    t.control.episodes.chainFull = (s.control.episodes.chainFull && gone.isEmpty) ∧
    (s.cover.accounting = .idle → t.cover = s.cover) ∧
    (s.cover.accounting = .active →
      t.cover.element.get e = { c with
        causes := { c.causes with pulser := true }
        gapStart := if c.causes.nonempty then c.gapStart else some x
        run := none
        backWall := .present } ∧
      ∀ i, i ≠ e → t.cover.element.get i = s.cover.element.get i) ∧
    (s.hasRoomFor (gone.length + 2) → ∃ fault gap, fault.reports s.control.address record ∧
      gapNotices s.control.address 4 x (fun i => if i = e then some (false, x) else none) [gap] ∧
      t.link = judged.link.queueing (fault :: if opens then [gap] else [])) ∧
    t.odo = s.odo ∧ t.sched = s.sched ∧ t.pulser = s.pulser ∧ s.sameSetup t ∧ s.sameOutside t

/-- A travel advance at the coverage account: below the span end it adds its increment to the gap travel of each
element with an open gap and changes nothing else. One that reaches or passes the span end queues one SPAN notice with
the next index, the current car position as end X and the tested shares, starts the next span at the old span end, and
leaves each element with an open gap the rest of the advance as gap travel and the others 0. At a full transmit queue
that notice is dropped and counted among the SPAN drops, and the account goes on as if it had been queued. In an idle
account nothing is counted (R97, R106, R107, R148). -/
def Obligations.SpansEndAtTheirLength : Prop :=
  (∀ (travel : Nat) (s : State),
    (s.cover.accounting = .idle → s.coverAdvance travel = s) ∧
    (s.cover.accounting = .active → travel < s.cover.spanStart + 1000000 * s.station.spanLength →
      s.coverAdvance travel = { s with cover := { s.cover with
        lastTravel := travel
        element := Eight.ofFn fun e => { s.cover.element.get e with
          gapTravel := (s.cover.element.get e).gapTravel +
            if (s.cover.element.get e).causes.nonempty then travel - s.cover.lastTravel else 0 } } })) ∧
  ∀ (travel : Nat) (s : State), s.cover.accounting = .active →
    let length := 1000000 * s.station.spanLength
    let spanEnd := s.cover.spanStart + length
    s.cover.lastTravel ≤ spanEnd → spanEnd ≤ travel →
    let next : Coverage := { s.cover with
      spanIndex := min (s.cover.spanIndex + 1) 65535
      spanStart := spanEnd
      lastTravel := travel
      element := Eight.ofFn fun e => { s.cover.element.get e with
        gapTravel := if (s.cover.element.get e).causes.nonempty then travel - spanEnd else 0 } }
    (s.hasRoomFor 1 → ∃ f,
      f.showsSpan s length (fun e => (s.cover.element.get e).gapTravel +
        if (s.cover.element.get e).causes.nonempty then spanEnd - s.cover.lastTravel else 0) ∧
      s.coverAdvance travel = { s with cover := next, link := s.link.queueing [f] }) ∧
    (24 ≤ s.link.txQueue.length →
      s.coverAdvance travel =
        { s.dropping { s.link.drops with span := min (s.link.drops.span + 1) 65535 } with cover := next })

/-- The results of a shot at the coverage monitor: in an active account each result's coupling is worked before its
back-wall finding, in an idle one neither. Of a COUPLED element a good shot ends the bad run, the first bad shot
starts one at its travel and car position, and a bad shot extends it; one at which the run has lasted the coupling run
makes the element UNCOUPLED: its run ends, its loss record is discarded, it carries the cause UNCOUPLED, and, with no
cause before, its gap opens at the car position of the run's first shot. Of an UNCOUPLED element a bad shot ends the
good run, the first good shot starts one, and one at which the run has lasted the coupling run makes it COUPLED: the
cause UNCOUPLED leaves, and when none is left its gap closes at the car position of the good run's first shot. A good
shot of a COUPLED element that finds the back-wall absent opens a loss record at the shot's car position when none is
open; one that finds it present closes an open record, which goes to the judge with its start X and the shot's car
position; a bad shot or an UNCOUPLED element opens none, and without a finding nothing happens. A gap that opens or
closes is told in one GAP notice, which at a full transmit queue is dropped and counted among the GAP drops, the
account going on as if it had been queued (R97, R99, R100, R102 to R105, R108 to R110, R148). That a bad shot which
found the back-wall closes the record is the model's choice where the manual speaks both ways (assumption log 21). -/
def Obligations.ShotsMoveTheCoverageAccount : Prop :=
  (∀ (r : ShotResult) (s : State),
    let c := s.cover.element.get r.element
    let x := max (-2147483648) (min 2147483647 (r.pos.mm + s.station.mountOffset + ((r.pos.um : Int) + 500) / 1000))
    let runs : Option CouplingRun → State := fun run => { s with cover := { s.cover with
      element := s.cover.element.set r.element { c with run := run } } }
    (c.coupling = .coupled → r.found = true → s.coupleShot r = runs none) ∧
    (c.coupling = .coupled → r.found = false → c.run = none → s.coupleShot r = runs (some ⟨r.travel, x⟩)) ∧
    (c.coupling = .uncoupled → r.found = false → s.coupleShot r = runs none) ∧
    (c.coupling = .uncoupled → r.found = true → c.run = none → s.coupleShot r = runs (some ⟨r.travel, x⟩)) ∧
    (∀ run, c.run = some run → r.travel - run.travel < 1000 * s.station.couplingRun →
      (c.coupling = .coupled ∧ r.found = false) ∨ (c.coupling = .uncoupled ∧ r.found = true) → s.coupleShot r = s)) ∧
  (∀ (r : ShotResult) (run : CouplingRun) (s : State), s.cover.accounting = .active →
    (s.cover.element.get r.element).run = some run → 1000 * s.station.couplingRun ≤ r.travel - run.travel →
    let t := s.coupleShot r
    let c := s.cover.element.get r.element
    let told : GapChanges → Prop := fun change =>
      (s.hasRoomFor 1 → ∃ f, gapNotices s.control.address 0 run.x change [f] ∧
        t = { s with cover := t.cover, link := s.link.queueing [f] }) ∧
      (24 ≤ s.link.txQueue.length →
        t = { s.dropping { s.link.drops with gap := min (s.link.drops.gap + 1) 65535 } with cover := t.cover })
    (∀ i, i ≠ r.element → t.cover.element.get i = s.cover.element.get i) ∧
    t.cover = { s.cover with element := t.cover.element } ∧
    (c.coupling = .coupled → r.found = false →
      t.cover.element.get r.element = { c with
        coupling := .uncoupled
        run := none
        backWall := .present
        causes := { c.causes with uncoupled := true }
        gapStart := if c.causes.nonempty then c.gapStart else some run.x } ∧
      (c.causes.nonempty = false → told fun e => if e = r.element then some (false, run.x) else none) ∧
      (c.causes.nonempty = true → t = { s with cover := t.cover })) ∧
    (c.coupling = .uncoupled → r.found = true →
      let causes := { c.causes with uncoupled := false }
      let closes := c.causes.nonempty && !causes.nonempty
      t.cover.element.get r.element = { c with
        coupling := .coupled
        run := none
        causes := causes
        gapStart := if closes then none else c.gapStart } ∧
      (closes = true → told fun e => if e = r.element then some (true, c.gapStart.getD run.x) else none) ∧
      (closes = false → t = { s with cover := t.cover }))) ∧
  (∀ (r : ShotResult) (s : State),
    (s.cover.accounting = .active → s.coverResult r = (s.coupleShot r).backWallShot r) ∧
    (s.cover.accounting = .idle → s.coverResult r = s)) ∧
  ∀ (r : ShotResult) (s : State), s.cover.accounting = .active →
    let c := s.cover.element.get r.element
    let x := max (-2147483648) (min 2147483647 (r.pos.mm + s.station.mountOffset + ((r.pos.um : Int) + 500) / 1000))
    let walled : BackWall → State := fun b => { s with cover := { s.cover with
      element := s.cover.element.set r.element { c with backWall := b } } }
    (r.backWall = some false → c.backWall = .present → r.found = true → c.coupling = .coupled →
      s.backWallShot r = walled (.lost x)) ∧
    (r.backWall = some false → r.found = false ∨ c.coupling = .uncoupled → s.backWallShot r = s) ∧
    (∀ startX, r.backWall = some false → c.backWall = .lost startX → s.backWallShot r = s) ∧
    (∀ startX, r.backWall = some true → c.backWall = .lost startX →
      s.backWallShot r = (walled .present).judgeLoss r.element startX x) ∧
    (r.backWall = some true → c.backWall = .present → s.backWallShot r = s) ∧
    (r.backWall = none → s.backWallShot r = s)

/-! ## Encodings -/

/-- Every command that is a frame is read back from its frame, with every operand at every value (Tables 8-5 and 10-3 to
10-10). -/
def Obligations.FramesReadBackAsTheirCommands : Prop :=
  ∀ (c : Instr) (f : Frame), c.wellFormed = true → commandFrame c = some f → frameCommand f = c

/-- The bits of every frame whose payload length its kind allows are judged good and give the frame back, whatever its
priority and source (R136, R139, R140). -/
def Obligations.BitsReadBackAsTheirFrame : Prop :=
  ∀ f : Frame, lengthOk f.kind f.payload.length = true → judgeBits f.bits = .good f

/-! ## What every step keeps -/

/-- Every step keeps the transmit and receive queues, the fault file, the chain table, the two pairing lists and the
peer table within their capacities, with one peer table entry for each address and none for the own. -/
def Obligations.StepKeepsCapacities : Prop :=
  ∀ s t : State, s.withinCapacity → step s = .next t → t.withinCapacity

/-- Every step keeps the chains in creation order below the next creation number, and gap starts present exactly where a
cause stands. -/
def Obligations.StepKeepsChainsAndGapsInOrder : Prop :=
  ∀ s t : State, s.chainsInOrder → s.gapsConsistent → step s = .next t → t.chainsInOrder ∧ t.gapsConsistent

/-- Every step keeps the link controller inactive exactly while the station is STARTING, every block at rest while it
is, and the transmitter's state in agreement with its queue. -/
def Obligations.StepKeepsTheLinkSound : Prop :=
  ∀ s t : State, s.linkActiveOutsideStarting → s.atRestInStarting → s.link.txAgrees → step s = .next t →
    t.linkActiveOutsideStarting ∧ t.atRestInStarting ∧ t.link.txAgrees

/-- Every step keeps the saturating counters, the odometer, the sequence number and the scheduler's counts in their
ranges. The skip count's range, up to 255, is the model's choice where the manual speaks both ways (assumption log
25). -/
def Obligations.StepKeepsRanges : Prop :=
  ∀ s t : State, s.countersInRange → s.odometerInRange → s.sequenceInRange → s.schedInRange → step s = .next t →
    t.countersInRange ∧ t.odometerInRange ∧ t.sequenceInRange ∧ t.schedInRange

/-- The state after reset meets every invariant. -/
def Obligations.ResetMeetsTheInvariants : Prop :=
  State.reset.withinCapacity ∧ State.reset.chainsInOrder ∧ State.reset.gapsConsistent ∧
    State.reset.linkActiveOutsideStarting ∧ State.reset.atRestInStarting ∧ State.reset.link.txAgrees ∧
    State.reset.countersInRange ∧ State.reset.odometerInRange ∧ State.reset.sequenceInRange ∧ State.reset.schedInRange

/-- Only RESET, STARTING_END and HELD_IN_RESET change address, rail, reset cause, configuration, configured mask, fault
offset or image id; only RUN, beside them, changes the run number; and no command but ZONE and the resets changes an
exclusion zone (R79, R80, R158, R159, R164, R167, R168). -/
def Obligations.SetupStandsUntilTheNextReset : Prop :=
  ∀ (c : Instr) (s t : State), startsPart c = false → exec c s = .next t →
    s.sameSetup t ∧ t.hold = s.hold ∧ t.loader = s.loader ∧ t.pending = s.pending ∧
    ((∀ src dest n start, c ≠ .run src dest n start) → t.control.runNumber = s.control.runNumber) ∧
    ((∀ src dest index base limit, c ≠ .zone src dest index base limit) → t.judge.zones = s.judge.zones)
end

