-- ==== Sys2Proof/Laws/Eight.lean ====
section
/-! SUPPORT. The laws of the eight-fold collection: reading after building, after setting, after mapping. -/

namespace Sys2Proof

variable {α β : Type}

@[simp] theorem Eight.get_ofFn (f : Fin 8 → α) (i : Fin 8) : (Eight.ofFn f).get i = f i := by
  match i with
  | 0 | 1 | 2 | 3 | 4 | 5 | 6 | 7 => rfl

@[simp] theorem Eight.get_all (a : α) (i : Fin 8) : (Eight.all a).get i = a := by
  match i with
  | 0 | 1 | 2 | 3 | 4 | 5 | 6 | 7 => rfl

theorem Eight.get_set (v : Eight α) (i j : Fin 8) (a : α) :
    (v.set i a).get j = if j = i then a else v.get j := by
  simp [Eight.set]

@[simp] theorem Eight.get_set_same (v : Eight α) (i : Fin 8) (a : α) : (v.set i a).get i = a := by
  simp [Eight.get_set]

theorem Eight.get_set_other (v : Eight α) {i j : Fin 8} (h : j ≠ i) (a : α) : (v.set i a).get j = v.get j := by
  simp [Eight.get_set, h]

@[simp] theorem Eight.get_map (f : α → β) (v : Eight α) (i : Fin 8) : (v.map f).get i = f (v.get i) := by
  simp [Eight.map]

/-- Two collections with the same value at every place are equal. -/
theorem Eight.ext_get {v w : Eight α} (h : ∀ i, v.get i = w.get i) : v = w := by
  cases v
  cases w
  have h0 := h 0
  have h1 := h 1
  have h2 := h 2
  have h3 := h 3
  have h4 := h 4
  have h5 := h 5
  have h6 := h 6
  have h7 := h 7
  simp only [Eight.get] at h0 h1 h2 h3 h4 h5 h6 h7
  simp [h0, h1, h2, h3, h4, h5, h6, h7]

@[simp] theorem Eight.ofFn_get (v : Eight α) : Eight.ofFn v.get = v := rfl

theorem Eight.set_same (v : Eight α) (i : Fin 8) : v.set i (v.get i) = v := by
  apply Eight.ext_get
  intro j
  simp only [Eight.get_set]
  split
  · next h => rw [h]
  · rfl

@[simp] theorem get_noElements (e : Element) : noElements.get e = false := by simp [noElements]

@[simp] theorem get_setOf (es : List Element) (e : Element) : (setOf es).get e = es.contains e := by simp [setOf]

theorem mem_elements (e : Element) : e ∈ elements := by
  match e with
  | 0 | 1 | 2 | 3 | 4 | 5 | 6 | 7 => simp [elements]

@[simp] theorem mem_members (m : ElementSet) (e : Element) : e ∈ m.members ↔ m.get e = true := by
  simp [Eight.members, mem_elements]

/-- The elements are listed once each, in increasing order. -/
theorem elements_sorted : elements.Pairwise (· < ·) := by decide

end Sys2Proof
end

