-- ==== Sys2Proof/Laws/State.lean ====
section
/-! SUPPORT. One lemma for each field of `State` under each change of one block, and the same for the smallest
operations over them, so that no later proof unfolds a record update. -/

namespace Sys2Proof.Machine

variable (s : State)

/-! ## `modOdo` -/

section
variable (f : Odometer → Odometer)
@[simp] theorem State.modOdo_odo : (s.modOdo f).odo = f s.odo := rfl
@[simp] theorem State.modOdo_sched : (s.modOdo f).sched = s.sched := rfl
@[simp] theorem State.modOdo_pulser : (s.modOdo f).pulser = s.pulser := rfl
@[simp] theorem State.modOdo_tracker : (s.modOdo f).tracker = s.tracker := rfl
@[simp] theorem State.modOdo_judge : (s.modOdo f).judge = s.judge := rfl
@[simp] theorem State.modOdo_cover : (s.modOdo f).cover = s.cover := rfl
@[simp] theorem State.modOdo_pair : (s.modOdo f).pair = s.pair := rfl
@[simp] theorem State.modOdo_link : (s.modOdo f).link = s.link := rfl
@[simp] theorem State.modOdo_control : (s.modOdo f).control = s.control := rfl
@[simp] theorem State.modOdo_loader : (s.modOdo f).loader = s.loader := rfl
@[simp] theorem State.modOdo_hold : (s.modOdo f).hold = s.hold := rfl
@[simp] theorem State.modOdo_pins : (s.modOdo f).pins = s.pins := rfl
@[simp] theorem State.modOdo_free : (s.modOdo f).free = s.free := rfl
@[simp] theorem State.modOdo_pending : (s.modOdo f).pending = s.pending := rfl
theorem State.modOdo_modOdo (g : Odometer → Odometer) : (s.modOdo f).modOdo g = s.modOdo fun x => g (f x) := rfl
@[simp] theorem State.modOdo_config : (s.modOdo f).config = s.config := rfl
@[simp] theorem State.modOdo_station : (s.modOdo f).station = s.station := rfl
@[simp] theorem State.modOdo_elem (e : Element) : (s.modOdo f).elem e = s.elem e := rfl
end

/-! ## `modSched` -/

section
variable (f : Scheduler → Scheduler)
@[simp] theorem State.modSched_odo : (s.modSched f).odo = s.odo := rfl
@[simp] theorem State.modSched_sched : (s.modSched f).sched = f s.sched := rfl
@[simp] theorem State.modSched_pulser : (s.modSched f).pulser = s.pulser := rfl
@[simp] theorem State.modSched_tracker : (s.modSched f).tracker = s.tracker := rfl
@[simp] theorem State.modSched_judge : (s.modSched f).judge = s.judge := rfl
@[simp] theorem State.modSched_cover : (s.modSched f).cover = s.cover := rfl
@[simp] theorem State.modSched_pair : (s.modSched f).pair = s.pair := rfl
@[simp] theorem State.modSched_link : (s.modSched f).link = s.link := rfl
@[simp] theorem State.modSched_control : (s.modSched f).control = s.control := rfl
@[simp] theorem State.modSched_loader : (s.modSched f).loader = s.loader := rfl
@[simp] theorem State.modSched_hold : (s.modSched f).hold = s.hold := rfl
@[simp] theorem State.modSched_pins : (s.modSched f).pins = s.pins := rfl
@[simp] theorem State.modSched_free : (s.modSched f).free = s.free := rfl
@[simp] theorem State.modSched_pending : (s.modSched f).pending = s.pending := rfl
theorem State.modSched_modSched (g : Scheduler → Scheduler) : (s.modSched f).modSched g = s.modSched fun x => g (f x) := rfl
@[simp] theorem State.modSched_config : (s.modSched f).config = s.config := rfl
@[simp] theorem State.modSched_station : (s.modSched f).station = s.station := rfl
@[simp] theorem State.modSched_elem (e : Element) : (s.modSched f).elem e = s.elem e := rfl
end

/-! ## `modPulser` -/

section
variable (f : Pulser → Pulser)
@[simp] theorem State.modPulser_odo : (s.modPulser f).odo = s.odo := rfl
@[simp] theorem State.modPulser_sched : (s.modPulser f).sched = s.sched := rfl
@[simp] theorem State.modPulser_pulser : (s.modPulser f).pulser = f s.pulser := rfl
@[simp] theorem State.modPulser_tracker : (s.modPulser f).tracker = s.tracker := rfl
@[simp] theorem State.modPulser_judge : (s.modPulser f).judge = s.judge := rfl
@[simp] theorem State.modPulser_cover : (s.modPulser f).cover = s.cover := rfl
@[simp] theorem State.modPulser_pair : (s.modPulser f).pair = s.pair := rfl
@[simp] theorem State.modPulser_link : (s.modPulser f).link = s.link := rfl
@[simp] theorem State.modPulser_control : (s.modPulser f).control = s.control := rfl
@[simp] theorem State.modPulser_loader : (s.modPulser f).loader = s.loader := rfl
@[simp] theorem State.modPulser_hold : (s.modPulser f).hold = s.hold := rfl
@[simp] theorem State.modPulser_pins : (s.modPulser f).pins = s.pins := rfl
@[simp] theorem State.modPulser_free : (s.modPulser f).free = s.free := rfl
@[simp] theorem State.modPulser_pending : (s.modPulser f).pending = s.pending := rfl
theorem State.modPulser_modPulser (g : Pulser → Pulser) : (s.modPulser f).modPulser g = s.modPulser fun x => g (f x) := rfl
@[simp] theorem State.modPulser_config : (s.modPulser f).config = s.config := rfl
@[simp] theorem State.modPulser_station : (s.modPulser f).station = s.station := rfl
@[simp] theorem State.modPulser_elem (e : Element) : (s.modPulser f).elem e = s.elem e := rfl
end

/-! ## `modTracker` -/

section
variable (f : Tracker → Tracker)
@[simp] theorem State.modTracker_odo : (s.modTracker f).odo = s.odo := rfl
@[simp] theorem State.modTracker_sched : (s.modTracker f).sched = s.sched := rfl
@[simp] theorem State.modTracker_pulser : (s.modTracker f).pulser = s.pulser := rfl
@[simp] theorem State.modTracker_tracker : (s.modTracker f).tracker = f s.tracker := rfl
@[simp] theorem State.modTracker_judge : (s.modTracker f).judge = s.judge := rfl
@[simp] theorem State.modTracker_cover : (s.modTracker f).cover = s.cover := rfl
@[simp] theorem State.modTracker_pair : (s.modTracker f).pair = s.pair := rfl
@[simp] theorem State.modTracker_link : (s.modTracker f).link = s.link := rfl
@[simp] theorem State.modTracker_control : (s.modTracker f).control = s.control := rfl
@[simp] theorem State.modTracker_loader : (s.modTracker f).loader = s.loader := rfl
@[simp] theorem State.modTracker_hold : (s.modTracker f).hold = s.hold := rfl
@[simp] theorem State.modTracker_pins : (s.modTracker f).pins = s.pins := rfl
@[simp] theorem State.modTracker_free : (s.modTracker f).free = s.free := rfl
@[simp] theorem State.modTracker_pending : (s.modTracker f).pending = s.pending := rfl
theorem State.modTracker_modTracker (g : Tracker → Tracker) : (s.modTracker f).modTracker g = s.modTracker fun x => g (f x) := rfl
@[simp] theorem State.modTracker_config : (s.modTracker f).config = s.config := rfl
@[simp] theorem State.modTracker_station : (s.modTracker f).station = s.station := rfl
@[simp] theorem State.modTracker_elem (e : Element) : (s.modTracker f).elem e = s.elem e := rfl
end

/-! ## `modJudge` -/

section
variable (f : Judge → Judge)
@[simp] theorem State.modJudge_odo : (s.modJudge f).odo = s.odo := rfl
@[simp] theorem State.modJudge_sched : (s.modJudge f).sched = s.sched := rfl
@[simp] theorem State.modJudge_pulser : (s.modJudge f).pulser = s.pulser := rfl
@[simp] theorem State.modJudge_tracker : (s.modJudge f).tracker = s.tracker := rfl
@[simp] theorem State.modJudge_judge : (s.modJudge f).judge = f s.judge := rfl
@[simp] theorem State.modJudge_cover : (s.modJudge f).cover = s.cover := rfl
@[simp] theorem State.modJudge_pair : (s.modJudge f).pair = s.pair := rfl
@[simp] theorem State.modJudge_link : (s.modJudge f).link = s.link := rfl
@[simp] theorem State.modJudge_control : (s.modJudge f).control = s.control := rfl
@[simp] theorem State.modJudge_loader : (s.modJudge f).loader = s.loader := rfl
@[simp] theorem State.modJudge_hold : (s.modJudge f).hold = s.hold := rfl
@[simp] theorem State.modJudge_pins : (s.modJudge f).pins = s.pins := rfl
@[simp] theorem State.modJudge_free : (s.modJudge f).free = s.free := rfl
@[simp] theorem State.modJudge_pending : (s.modJudge f).pending = s.pending := rfl
theorem State.modJudge_modJudge (g : Judge → Judge) : (s.modJudge f).modJudge g = s.modJudge fun x => g (f x) := rfl
@[simp] theorem State.modJudge_config : (s.modJudge f).config = s.config := rfl
@[simp] theorem State.modJudge_station : (s.modJudge f).station = s.station := rfl
@[simp] theorem State.modJudge_elem (e : Element) : (s.modJudge f).elem e = s.elem e := rfl
end

/-! ## `modCover` -/

section
variable (f : Coverage → Coverage)
@[simp] theorem State.modCover_odo : (s.modCover f).odo = s.odo := rfl
@[simp] theorem State.modCover_sched : (s.modCover f).sched = s.sched := rfl
@[simp] theorem State.modCover_pulser : (s.modCover f).pulser = s.pulser := rfl
@[simp] theorem State.modCover_tracker : (s.modCover f).tracker = s.tracker := rfl
@[simp] theorem State.modCover_judge : (s.modCover f).judge = s.judge := rfl
@[simp] theorem State.modCover_cover : (s.modCover f).cover = f s.cover := rfl
@[simp] theorem State.modCover_pair : (s.modCover f).pair = s.pair := rfl
@[simp] theorem State.modCover_link : (s.modCover f).link = s.link := rfl
@[simp] theorem State.modCover_control : (s.modCover f).control = s.control := rfl
@[simp] theorem State.modCover_loader : (s.modCover f).loader = s.loader := rfl
@[simp] theorem State.modCover_hold : (s.modCover f).hold = s.hold := rfl
@[simp] theorem State.modCover_pins : (s.modCover f).pins = s.pins := rfl
@[simp] theorem State.modCover_free : (s.modCover f).free = s.free := rfl
@[simp] theorem State.modCover_pending : (s.modCover f).pending = s.pending := rfl
theorem State.modCover_modCover (g : Coverage → Coverage) : (s.modCover f).modCover g = s.modCover fun x => g (f x) := rfl
@[simp] theorem State.modCover_config : (s.modCover f).config = s.config := rfl
@[simp] theorem State.modCover_station : (s.modCover f).station = s.station := rfl
@[simp] theorem State.modCover_elem (e : Element) : (s.modCover f).elem e = s.elem e := rfl
end

/-! ## `modPair` -/

section
variable (f : Pairing → Pairing)
@[simp] theorem State.modPair_odo : (s.modPair f).odo = s.odo := rfl
@[simp] theorem State.modPair_sched : (s.modPair f).sched = s.sched := rfl
@[simp] theorem State.modPair_pulser : (s.modPair f).pulser = s.pulser := rfl
@[simp] theorem State.modPair_tracker : (s.modPair f).tracker = s.tracker := rfl
@[simp] theorem State.modPair_judge : (s.modPair f).judge = s.judge := rfl
@[simp] theorem State.modPair_cover : (s.modPair f).cover = s.cover := rfl
@[simp] theorem State.modPair_pair : (s.modPair f).pair = f s.pair := rfl
@[simp] theorem State.modPair_link : (s.modPair f).link = s.link := rfl
@[simp] theorem State.modPair_control : (s.modPair f).control = s.control := rfl
@[simp] theorem State.modPair_loader : (s.modPair f).loader = s.loader := rfl
@[simp] theorem State.modPair_hold : (s.modPair f).hold = s.hold := rfl
@[simp] theorem State.modPair_pins : (s.modPair f).pins = s.pins := rfl
@[simp] theorem State.modPair_free : (s.modPair f).free = s.free := rfl
@[simp] theorem State.modPair_pending : (s.modPair f).pending = s.pending := rfl
theorem State.modPair_modPair (g : Pairing → Pairing) : (s.modPair f).modPair g = s.modPair fun x => g (f x) := rfl
@[simp] theorem State.modPair_config : (s.modPair f).config = s.config := rfl
@[simp] theorem State.modPair_station : (s.modPair f).station = s.station := rfl
@[simp] theorem State.modPair_elem (e : Element) : (s.modPair f).elem e = s.elem e := rfl
end

/-! ## `modLink` -/

section
variable (f : Link → Link)
@[simp] theorem State.modLink_odo : (s.modLink f).odo = s.odo := rfl
@[simp] theorem State.modLink_sched : (s.modLink f).sched = s.sched := rfl
@[simp] theorem State.modLink_pulser : (s.modLink f).pulser = s.pulser := rfl
@[simp] theorem State.modLink_tracker : (s.modLink f).tracker = s.tracker := rfl
@[simp] theorem State.modLink_judge : (s.modLink f).judge = s.judge := rfl
@[simp] theorem State.modLink_cover : (s.modLink f).cover = s.cover := rfl
@[simp] theorem State.modLink_pair : (s.modLink f).pair = s.pair := rfl
@[simp] theorem State.modLink_link : (s.modLink f).link = f s.link := rfl
@[simp] theorem State.modLink_control : (s.modLink f).control = s.control := rfl
@[simp] theorem State.modLink_loader : (s.modLink f).loader = s.loader := rfl
@[simp] theorem State.modLink_hold : (s.modLink f).hold = s.hold := rfl
@[simp] theorem State.modLink_pins : (s.modLink f).pins = s.pins := rfl
@[simp] theorem State.modLink_free : (s.modLink f).free = s.free := rfl
@[simp] theorem State.modLink_pending : (s.modLink f).pending = s.pending := rfl
theorem State.modLink_modLink (g : Link → Link) : (s.modLink f).modLink g = s.modLink fun x => g (f x) := rfl
@[simp] theorem State.modLink_config : (s.modLink f).config = s.config := rfl
@[simp] theorem State.modLink_station : (s.modLink f).station = s.station := rfl
@[simp] theorem State.modLink_elem (e : Element) : (s.modLink f).elem e = s.elem e := rfl
end

/-! ## `modControl` -/

section
variable (f : Control → Control)
@[simp] theorem State.modControl_odo : (s.modControl f).odo = s.odo := rfl
@[simp] theorem State.modControl_sched : (s.modControl f).sched = s.sched := rfl
@[simp] theorem State.modControl_pulser : (s.modControl f).pulser = s.pulser := rfl
@[simp] theorem State.modControl_tracker : (s.modControl f).tracker = s.tracker := rfl
@[simp] theorem State.modControl_judge : (s.modControl f).judge = s.judge := rfl
@[simp] theorem State.modControl_cover : (s.modControl f).cover = s.cover := rfl
@[simp] theorem State.modControl_pair : (s.modControl f).pair = s.pair := rfl
@[simp] theorem State.modControl_link : (s.modControl f).link = s.link := rfl
@[simp] theorem State.modControl_control : (s.modControl f).control = f s.control := rfl
@[simp] theorem State.modControl_loader : (s.modControl f).loader = s.loader := rfl
@[simp] theorem State.modControl_hold : (s.modControl f).hold = s.hold := rfl
@[simp] theorem State.modControl_pins : (s.modControl f).pins = s.pins := rfl
@[simp] theorem State.modControl_free : (s.modControl f).free = s.free := rfl
@[simp] theorem State.modControl_pending : (s.modControl f).pending = s.pending := rfl
theorem State.modControl_modControl (g : Control → Control) : (s.modControl f).modControl g = s.modControl fun x => g (f x) := rfl
end

/-! ## The smallest operations as changes of one block -/

theorem State.count_eq (f : Outcomes → Outcomes) : s.count f = s.modLink (Link.count f) := rfl
theorem State.setSched_eq (st : SchedState) : s.setSched st = s.modSched fun c => { c with state := st } := rfl
theorem State.setStation_eq (st : StationState) : s.setStation st = s.modControl fun c => { c with state := st } := rfl
theorem State.hvOff_eq : s.hvOff = s.modPulser fun p => { p with hv := .off } := rfl

end Sys2Proof.Machine
end

