-- ==== Sys2Proof/Laws/Footprint.lean ====
section
/-! SUPPORT. Footprints: which parts of the state an operation can change at all. One lemma for each shared operation
says that it stays within its footprint; every frame of a command follows from these. -/

namespace Sys2Proof.Machine

/-- The parts of the state an operation may change: `true` where it may. -/
structure Footprint where
  /-- the odometer -/
  odo : Bool := false
  /-- the shot scheduler -/
  sched : Bool := false
  /-- the pulser bank -/
  pulser : Bool := false
  /-- the chain tracker -/
  tracker : Bool := false
  /-- the indication judge -/
  judge : Bool := false
  /-- the coverage monitor -/
  cover : Bool := false
  /-- the pairing unit -/
  pair : Bool := false
  /-- the transmit queue, the transmitter's state and the drop counters -/
  tx : Bool := false
  /-- the receiver's state, the receive queue and the line -/
  rx : Bool := false
  /-- the outcome counters -/
  counts : Bool := false
  /-- the loader -/
  loader : Bool := false
  /-- the conditions holding the part in reset -/
  hold : Bool := false
  /-- the sensor lines -/
  pins : Bool := false
  /-- the free orders taken -/
  free : Bool := false
  /-- the fault file and the episode marks -/
  faults : Bool := false
  /-- the enable mask -/
  mask : Bool := false
  /-- the station state -/
  station : Bool := false
  /-- the run number and the run end pending mark -/
  run : Bool := false
  /-- what only a reset and a load set: address, rail, cause, configuration, configured mask, fault offset, image id -/
  setup : Bool := false

/-- Everything `p` allows, `q` allows. -/
def Footprint.le (p q : Footprint) : Bool :=
  (!p.odo || q.odo) &&
  (!p.sched || q.sched) &&
  (!p.pulser || q.pulser) &&
  (!p.tracker || q.tracker) &&
  (!p.judge || q.judge) &&
  (!p.cover || q.cover) &&
  (!p.pair || q.pair) &&
  (!p.tx || q.tx) &&
  (!p.rx || q.rx) &&
  (!p.counts || q.counts) &&
  (!p.loader || q.loader) &&
  (!p.hold || q.hold) &&
  (!p.pins || q.pins) &&
  (!p.free || q.free) &&
  (!p.faults || q.faults) &&
  (!p.mask || q.mask) &&
  (!p.station || q.station) &&
  (!p.run || q.run) &&
  (!p.setup || q.setup)

/-- `t` differs from `s` only in the parts the footprint allows; no operation changes the queue of commands waiting. -/
structure Within (p : Footprint) (s t : State) : Prop where
  odo : p.odo = false → t.odo = s.odo
  sched : p.sched = false → t.sched = s.sched
  pulser : p.pulser = false → t.pulser = s.pulser
  tracker : p.tracker = false → t.tracker = s.tracker
  judge : p.judge = false → t.judge = s.judge
  cover : p.cover = false → t.cover = s.cover
  pair : p.pair = false → t.pair = s.pair
  tx_txQueue : p.tx = false → t.link.txQueue = s.link.txQueue
  tx_tx : p.tx = false → t.link.tx = s.link.tx
  tx_drops : p.tx = false → t.link.drops = s.link.drops
  rx_rxQueue : p.rx = false → t.link.rxQueue = s.link.rxQueue
  rx_rx : p.rx = false → t.link.rx = s.link.rx
  rx_quiet : p.rx = false → t.link.quiet = s.link.quiet
  rx_pulse : p.rx = false → t.link.pulse = s.link.pulse
  counts : p.counts = false → t.link.counts = s.link.counts
  loader : p.loader = false → t.loader = s.loader
  hold : p.hold = false → t.hold = s.hold
  pins : p.pins = false → t.pins = s.pins
  free : p.free = false → t.free = s.free
  faults_faults : p.faults = false → t.control.faults = s.control.faults
  faults_episodes : p.faults = false → t.control.episodes = s.control.episodes
  mask : p.mask = false → t.control.enableMask = s.control.enableMask
  station_state : p.station = false → t.control.state = s.control.state
  station_liftFromStill : p.station = false → t.control.liftFromStill = s.control.liftFromStill
  run_runNumber : p.run = false → t.control.runNumber = s.control.runNumber
  run_runEndPending : p.run = false → t.control.runEndPending = s.control.runEndPending
  setup_address : p.setup = false → t.control.address = s.control.address
  setup_rail : p.setup = false → t.control.rail = s.control.rail
  setup_cause : p.setup = false → t.control.cause = s.control.cause
  setup_config : p.setup = false → t.control.config = s.control.config
  setup_configuredMask : p.setup = false → t.control.configuredMask = s.control.configuredMask
  setup_faultOffset : p.setup = false → t.control.faultOffset = s.control.faultOffset
  setup_imageId : p.setup = false → t.control.imageId = s.control.imageId
  pending : t.pending = s.pending

theorem Within.refl (p : Footprint) (s : State) : Within p s s := by
  constructor <;> simp

theorem Within.trans {p : Footprint} {s t u : State} (h : Within p s t) (k : Within p t u) : Within p s u where
  odo := fun e => (k.odo e).trans (h.odo e)
  sched := fun e => (k.sched e).trans (h.sched e)
  pulser := fun e => (k.pulser e).trans (h.pulser e)
  tracker := fun e => (k.tracker e).trans (h.tracker e)
  judge := fun e => (k.judge e).trans (h.judge e)
  cover := fun e => (k.cover e).trans (h.cover e)
  pair := fun e => (k.pair e).trans (h.pair e)
  tx_txQueue := fun e => (k.tx_txQueue e).trans (h.tx_txQueue e)
  tx_tx := fun e => (k.tx_tx e).trans (h.tx_tx e)
  tx_drops := fun e => (k.tx_drops e).trans (h.tx_drops e)
  rx_rxQueue := fun e => (k.rx_rxQueue e).trans (h.rx_rxQueue e)
  rx_rx := fun e => (k.rx_rx e).trans (h.rx_rx e)
  rx_quiet := fun e => (k.rx_quiet e).trans (h.rx_quiet e)
  rx_pulse := fun e => (k.rx_pulse e).trans (h.rx_pulse e)
  counts := fun e => (k.counts e).trans (h.counts e)
  loader := fun e => (k.loader e).trans (h.loader e)
  hold := fun e => (k.hold e).trans (h.hold e)
  pins := fun e => (k.pins e).trans (h.pins e)
  free := fun e => (k.free e).trans (h.free e)
  faults_faults := fun e => (k.faults_faults e).trans (h.faults_faults e)
  faults_episodes := fun e => (k.faults_episodes e).trans (h.faults_episodes e)
  mask := fun e => (k.mask e).trans (h.mask e)
  station_state := fun e => (k.station_state e).trans (h.station_state e)
  station_liftFromStill := fun e => (k.station_liftFromStill e).trans (h.station_liftFromStill e)
  run_runNumber := fun e => (k.run_runNumber e).trans (h.run_runNumber e)
  run_runEndPending := fun e => (k.run_runEndPending e).trans (h.run_runEndPending e)
  setup_address := fun e => (k.setup_address e).trans (h.setup_address e)
  setup_rail := fun e => (k.setup_rail e).trans (h.setup_rail e)
  setup_cause := fun e => (k.setup_cause e).trans (h.setup_cause e)
  setup_config := fun e => (k.setup_config e).trans (h.setup_config e)
  setup_configuredMask := fun e => (k.setup_configuredMask e).trans (h.setup_configuredMask e)
  setup_faultOffset := fun e => (k.setup_faultOffset e).trans (h.setup_faultOffset e)
  setup_imageId := fun e => (k.setup_imageId e).trans (h.setup_imageId e)
  pending := k.pending.trans h.pending

theorem Footprint.le_of_le {a b : Bool} (h : (!a || b) = true) (hb : b = false) : a = false := by
  cases a <;> simp_all

theorem Within.mono {p q : Footprint} {s t : State} (h : Within p s t) (le : p.le q = true) : Within q s t := by
  simp only [Footprint.le, Bool.and_eq_true] at le
  obtain ⟨⟨⟨⟨⟨⟨⟨⟨⟨⟨⟨⟨⟨⟨⟨⟨⟨⟨l0, l1⟩, l2⟩, l3⟩, l4⟩, l5⟩, l6⟩, l7⟩, l8⟩, l9⟩, l10⟩, l11⟩, l12⟩, l13⟩, l14⟩, l15⟩, l16⟩, l17⟩, l18⟩ := le
  exact {
    odo := fun e => h.odo (Footprint.le_of_le l0 e)
    sched := fun e => h.sched (Footprint.le_of_le l1 e)
    pulser := fun e => h.pulser (Footprint.le_of_le l2 e)
    tracker := fun e => h.tracker (Footprint.le_of_le l3 e)
    judge := fun e => h.judge (Footprint.le_of_le l4 e)
    cover := fun e => h.cover (Footprint.le_of_le l5 e)
    pair := fun e => h.pair (Footprint.le_of_le l6 e)
    tx_txQueue := fun e => h.tx_txQueue (Footprint.le_of_le l7 e)
    tx_tx := fun e => h.tx_tx (Footprint.le_of_le l7 e)
    tx_drops := fun e => h.tx_drops (Footprint.le_of_le l7 e)
    rx_rxQueue := fun e => h.rx_rxQueue (Footprint.le_of_le l8 e)
    rx_rx := fun e => h.rx_rx (Footprint.le_of_le l8 e)
    rx_quiet := fun e => h.rx_quiet (Footprint.le_of_le l8 e)
    rx_pulse := fun e => h.rx_pulse (Footprint.le_of_le l8 e)
    counts := fun e => h.counts (Footprint.le_of_le l9 e)
    loader := fun e => h.loader (Footprint.le_of_le l10 e)
    hold := fun e => h.hold (Footprint.le_of_le l11 e)
    pins := fun e => h.pins (Footprint.le_of_le l12 e)
    free := fun e => h.free (Footprint.le_of_le l13 e)
    faults_faults := fun e => h.faults_faults (Footprint.le_of_le l14 e)
    faults_episodes := fun e => h.faults_episodes (Footprint.le_of_le l14 e)
    mask := fun e => h.mask (Footprint.le_of_le l15 e)
    station_state := fun e => h.station_state (Footprint.le_of_le l16 e)
    station_liftFromStill := fun e => h.station_liftFromStill (Footprint.le_of_le l16 e)
    run_runNumber := fun e => h.run_runNumber (Footprint.le_of_le l17 e)
    run_runEndPending := fun e => h.run_runEndPending (Footprint.le_of_le l17 e)
    setup_address := fun e => h.setup_address (Footprint.le_of_le l18 e)
    setup_rail := fun e => h.setup_rail (Footprint.le_of_le l18 e)
    setup_cause := fun e => h.setup_cause (Footprint.le_of_le l18 e)
    setup_config := fun e => h.setup_config (Footprint.le_of_le l18 e)
    setup_configuredMask := fun e => h.setup_configuredMask (Footprint.le_of_le l18 e)
    setup_faultOffset := fun e => h.setup_faultOffset (Footprint.le_of_le l18 e)
    setup_imageId := fun e => h.setup_imageId (Footprint.le_of_le l18 e)
    pending := h.pending }

/-- A fold of operations that each stay within a footprint stays within it. -/
theorem Within.foldl {α : Type} {p : Footprint} (f : State → α → State) (h : ∀ s a, Within p s (f s a)) (l : List α)
    (s : State) : Within p s (l.foldl f s) := by
  induction l generalizing s with
  | nil => exact Within.refl p s
  | cons a l ih => exact (h s a).trans (ih (f s a))

end Sys2Proof.Machine
end

