-- ==== Sys2Proof/Laws/Frames.lean ====
section
/-! SUPPORT. The footprint of each shared operation, from queueing a notice up to the handling of a travel advance. -/

namespace Sys2Proof.Machine

/-! ## The footprints -/

/-- What queueing notices and reporting faults may change. -/
def Footprint.notices : Footprint := { tx := true, faults := true }
/-- What an own indication may change at the pairing unit. -/
def Footprint.pairing : Footprint := { tx := true, faults := true, pair := true }
/-- What judging may change. -/
def Footprint.judging : Footprint := { tx := true, faults := true, pair := true, judge := true }
/-- What closing chains may change. -/
def Footprint.closing : Footprint := { tx := true, faults := true, pair := true, judge := true, tracker := true }
/-- What a gap cause may change. -/
def Footprint.gaps : Footprint := { tx := true, faults := true, cover := true }
/-- What the coverage monitor may change, its loss records judged. -/
def Footprint.covering : Footprint := { tx := true, faults := true, pair := true, judge := true, cover := true }
/-- What the results of a shot may change. -/
def Footprint.results : Footprint :=
  { tx := true, faults := true, pair := true, judge := true, tracker := true, cover := true }
/-- What a disabled element may change. -/
def Footprint.disabling : Footprint :=
  { tx := true, faults := true, pair := true, judge := true, tracker := true, cover := true, mask := true }
/-- What the scheduler and the pulser bank may change by themselves. -/
def Footprint.firing : Footprint := { sched := true, pulser := true }
/-- What a forming attempt may change. -/
def Footprint.attempt : Footprint :=
  { tx := true, faults := true, pair := true, judge := true, tracker := true, cover := true, mask := true,
    sched := true, pulser := true, free := true }
/-- What a change of station state on a sensor event may change. -/
def Footprint.stations : Footprint :=
  { tx := true, faults := true, pair := true, judge := true, tracker := true, cover := true, mask := true,
    sched := true, pulser := true, free := true, station := true }
/-- The same with the odometer. -/
def Footprint.edges : Footprint :=
  { tx := true, faults := true, pair := true, judge := true, tracker := true, cover := true, mask := true,
    sched := true, pulser := true, free := true, station := true, odo := true }
/-- What the requests of a console may change. -/
def Footprint.requests : Footprint :=
  { tx := true, faults := true, pair := true, judge := true, tracker := true, cover := true, mask := true,
    sched := true, pulser := true, station := true, odo := true, run := true, counts := true }

/-! ## One block changed -/

variable (s : State)

theorem modOdo_within (f : Odometer → Odometer) : Within { odo := true } s (s.modOdo f) := by constructor <;> simp
theorem modSched_within (f : Scheduler → Scheduler) : Within { sched := true } s (s.modSched f) := by
  constructor <;> simp
theorem modPulser_within (f : Pulser → Pulser) : Within { pulser := true } s (s.modPulser f) := by constructor <;> simp
theorem modTracker_within (f : Tracker → Tracker) : Within { tracker := true } s (s.modTracker f) := by
  constructor <;> simp
theorem modJudge_within (f : Judge → Judge) : Within { judge := true } s (s.modJudge f) := by constructor <;> simp
theorem modCover_within (f : Coverage → Coverage) : Within { cover := true } s (s.modCover f) := by constructor <;> simp
theorem modPair_within (f : Pairing → Pairing) : Within { pair := true } s (s.modPair f) := by constructor <;> simp
theorem count_within (f : Outcomes → Outcomes) : Within { counts := true } s (s.count f) := by
  constructor <;> simp [State.count, Link.count]
theorem markChainFull_within (b : Bool) : Within { faults := true } s (s.markChainFull b) := by
  constructor <;> simp [State.markChainFull]
theorem markTxqFull_within (b : Bool) : Within { faults := true } s (s.markTxqFull b) := by
  constructor <;> simp [State.markTxqFull]
theorem markRxqOverrun_within (b : Bool) : Within { faults := true } s (s.markRxqOverrun b) := by
  constructor <;> simp [State.markRxqOverrun]
theorem setStation_within (st : StationState) : Within { station := true } s (s.setStation st) := by
  constructor <;> simp [State.setStation]
theorem setSched_within (st : SchedState) : Within Footprint.firing s (s.setSched st) :=
  (modSched_within s _).mono rfl
theorem hvOff_within : Within Footprint.firing s s.hvOff := (modPulser_within s _).mono rfl
theorem schedOffHvOff_within : Within Footprint.firing s s.schedOffHvOff :=
  (setSched_within s _).trans (hvOff_within _)

/-! ## Free orders -/

/-- The free merges with the tells `busy` under way: the items of the lanes, each lane's in its own order and the items of
two tells of one block never mixed. -/
inductive Merges {α : Type} : List Mark → List (List (Mark × α)) → List α → Prop where
  | done {busy : List Mark} {lanes : List (List (Mark × α))} (h : lanes.flatten = []) : Merges busy lanes []
  | take {busy : List Mark} {lanes : List (List (Mark × α))} {i : Nat} {mark : Mark} {a : α} {rest : List (Mark × α)}
      {out : List α} (h : lanes[i]? = some ((mark, a) :: rest)) (able : takeable busy ((mark, a) :: rest) = true)
      (k : Merges (busyAfter mark busy rest) (lanes.set i rest) out) : Merges busy lanes (a :: out)

theorem flatten_set_perm {α : Type} {a : α} {rest : List α} :
    ∀ (lanes : List (List α)) (i : Nat), lanes[i]? = some (a :: rest) →
      lanes.flatten.Perm (a :: (lanes.set i rest).flatten)
  | [], i, h => by simp at h
  | l :: ls, 0, h => by
    simp only [List.getElem?_cons_zero, Option.some.injEq] at h
    simp [h]
  | l :: ls, i + 1, h => by
    simp only [List.getElem?_cons_succ] at h
    simp only [List.flatten_cons, List.set_cons_succ]
    exact ((flatten_set_perm ls i h).append_left l).trans List.perm_middle

/-- A merge holds every item of its lanes, once. -/
theorem Merges.perm {α : Type} {busy : List Mark} {lanes : List (List (Mark × α))} {out : List α}
    (h : Merges busy lanes out) : out.Perm (lanes.flatten.map (·.2)) := by
  induction h with
  | done h => simp [h]
  | take h _ _ ih => exact (ih.cons _).trans ((flatten_set_perm _ _ h).map Prod.snd).symm

/-- Clashing goes both ways. -/
theorem Mark.clash_comm (a b : Mark) : a.clash b = b.clash a := by
  cases a <;> cases b <;> simp [Mark.clash, bne_comm]

/-- A tell does not clash with itself. -/
theorem Mark.clash_self (a : Mark) : a.clash a = false := by cases a <;> simp [Mark.clash]

/-- Every tell under way has its next item at the head of a lane, and no two of one block are under way. -/
def busyStands {α : Type} (busy : List Mark) (lanes : List (List (Mark × α))) : Prop :=
  (∀ b ∈ busy, ∃ (i : Nat) (a : α) (rest : List (Mark × α)), lanes[i]? = some ((b, a) :: rest)) ∧
    ∀ b ∈ busy, ∀ c ∈ busy, b.clash c = false

/-- Some lane can give an item while any holds one. -/
theorem ableLanes_ne_nil {α : Type} {busy : List Mark} {lanes : List (List (Mark × α))} (h : busyStands busy lanes)
    (ne : lanes.flatten ≠ []) : ableLanes busy lanes ≠ [] := by
  have able : ∀ (i : Nat) (x : Mark × α) (rest : List (Mark × α)), lanes[i]? = some (x :: rest) →
      takeable busy (x :: rest) = true → ableLanes busy lanes ≠ [] := by
    intro i x rest hi ht
    refine List.ne_nil_of_mem (List.mem_filter.2 ⟨List.mem_range.2 (List.getElem?_eq_some_iff.1 hi).1, ?_⟩)
    simpa [List.getD, hi] using ht
  cases busy with
  | nil =>
    obtain ⟨x, hx⟩ := List.exists_mem_of_ne_nil _ ne
    obtain ⟨l, hl, hxl⟩ := List.mem_flatten.1 hx
    obtain ⟨i, hi⟩ := List.getElem?_of_mem hl
    cases l with
    | nil => simp at hxl
    | cons y rest => exact able i y rest hi (by simp [takeable])
  | cons b more =>
    obtain ⟨i, a, rest, hi⟩ := h.1 b (by simp)
    refine able i _ rest hi (List.all_eq_true.2 fun c hc => ?_)
    simp [h.2 c hc b (by simp)]

/-- The tells under way after an item is taken: others than its own, and its own while the lane goes on with it. -/
theorem mem_busyAfter {α : Type} {mark : Mark} {busy : List Mark} {rest : List (Mark × α)} {b : Mark}
    (h : b ∈ busyAfter mark busy rest) :
    (b ∈ busy ∧ b ≠ mark) ∨ (b = mark ∧ ∃ a more, rest = (mark, a) :: more) := by
  have other : b ∈ busy.filter (fun b => b != mark) → b ∈ busy ∧ b ≠ mark := by simp
  unfold busyAfter at h
  dsimp only at h
  split at h
  · exact .inl (other h)
  · next next a more =>
    split at h
    · next e =>
      rcases List.mem_cons.1 h with h | h
      · exact .inr ⟨h, a, more, by rw [e]⟩
      · exact .inl (other h)
    · exact .inl (other h)

/-- After an item that could be taken is taken, the tells under way still stand. -/
theorem busyStands_after {α : Type} {busy : List Mark} {i : Nat} {mark : Mark} {a : α} {rest : List (Mark × α)}
    {lanes : List (List (Mark × α))} (h : busyStands busy lanes) (hi : lanes[i]? = some ((mark, a) :: rest))
    (ht : takeable busy ((mark, a) :: rest) = true) : busyStands (busyAfter mark busy rest) (lanes.set i rest) := by
  have hlt := (List.getElem?_eq_some_iff.1 hi).1
  have free : ∀ b ∈ busy, b.clash mark = false := fun b hb => by simpa using List.all_eq_true.1 ht b hb
  constructor
  · intro b hb
    rcases mem_busyAfter hb with ⟨old, ne⟩ | ⟨rfl, c, more, e⟩
    · obtain ⟨j, c, more, hj⟩ := h.1 b old
      have hij : i ≠ j := by
        rintro rfl
        rw [hi] at hj
        simp only [Option.some.injEq, List.cons.injEq, Prod.mk.injEq] at hj
        exact ne hj.1.1.symm
      exact ⟨j, c, more, by rw [List.getElem?_set_ne hij, hj]⟩
    · exact ⟨i, c, more, by rw [List.getElem?_set_self hlt, e]⟩
  · intro b hb c hc
    rcases mem_busyAfter hb with ⟨b', _⟩ | ⟨rfl, _⟩ <;> rcases mem_busyAfter hc with ⟨c', _⟩ | ⟨rfl, _⟩
    · exact h.2 b b' c c'
    · exact free b b'
    · rw [Mark.clash_comm]; exact free c c'
    · exact Mark.clash_self _

/-- Everything a free merge can give, with a place for every item: some merge of its lanes. -/
theorem freeMerge_merges {α : Type} (pick : Nat → Nat) :
    ∀ (fuel : Nat) (busy : List Mark) (lanes : List (List (Mark × α))), busyStands busy lanes →
      lanes.flatten.length ≤ fuel →
      Merges busy lanes (freeMerge pick fuel busy lanes)
  | 0, _, lanes, _, h => .done (List.length_eq_zero_iff.1 (Nat.le_zero.1 h))
  | fuel + 1, busy, lanes, hb, h => by
    unfold freeMerge
    dsimp only
    by_cases ne : lanes.flatten = []
    · have nil : ∀ i, lanes.getD i [] = [] := by
        intro i
        cases hi : lanes[i]? with
        | none => simp [List.getD, hi]
        | some l => simpa [List.getD, hi] using List.flatten_eq_nil_iff.1 ne l (List.mem_of_getElem? hi)
      rw [nil]
      exact .done ne
    · have able := ableLanes_ne_nil hb ne
      generalize hi : (ableLanes busy lanes).getD (pick fuel % (ableLanes busy lanes).length) 0 = i
      have mem : i ∈ ableLanes busy lanes := by
        have lt := Nat.mod_lt (pick fuel) (List.length_pos_iff.2 able)
        rw [← hi, List.getD, List.getElem?_eq_getElem lt]
        exact List.getElem_mem lt
      obtain ⟨range, ht⟩ := List.mem_filter.1 mem
      have lt := List.mem_range.1 range
      have get : lanes[i]? = some (lanes.getD i []) := by
        rw [List.getD, List.getElem?_eq_getElem lt]
        rfl
      split
      · next hn =>
        rw [hn] at ht
        exact absurd ht (by simp [takeable])
      · next tell a rest hc =>
        rw [hc] at get
        have len := (flatten_set_perm lanes i get).length_eq
        simp only [List.length_cons] at len
        exact .take get (by rwa [hc] at ht) (freeMerge_merges pick fuel _ _ (busyStands_after hb get (by rwa [hc] at ht)) (by omega))

/-- Running the acts of several lanes in a free order is running some merge of them, and it counts one free order. -/
theorem inFreeOrder_merges (ord : Nat → Nat → Nat) (lanes : List (List Act)) :
    ∃ acts, Merges [] lanes acts ∧
      s.inFreeOrder ord lanes = acts.foldl (fun t act => act t) { s with free := s.free + 1 } :=
  ⟨_, freeMerge_merges _ _ _ _ ⟨by simp, by simp⟩ (Nat.le_refl _), rfl⟩

/-- Acts that each stay within a footprint stay within it together. -/
theorem acts_within {p : Footprint} (acts : List (State → State)) (h : ∀ act ∈ acts, ∀ t, Within p t (act t)) :
    Within p s (acts.foldl (fun t act => act t) s) := by
  induction acts generalizing s with
  | nil => exact Within.refl _ s
  | cons a l ih => exact (h a (by simp) s).trans (ih _ (fun b hb => h b (by simp [hb])))

theorem inFreeOrder_within {p : Footprint} (ord : Nat → Nat → Nat) (lanes : List (List Act))
    (h : ∀ l ∈ lanes, ∀ act ∈ l, ∀ t, Within p t (act.2 t)) (hp : p.free = true) :
    Within p s (s.inFreeOrder ord lanes) := by
  have start : Within p s { s with free := s.free + 1 } := by constructor <;> simp [hp]
  obtain ⟨acts, hm, hs⟩ := inFreeOrder_merges s ord lanes
  rw [hs]
  refine start.trans (acts_within _ acts (fun act ha => ?_))
  obtain ⟨x, hx, rfl⟩ := List.mem_map.1 (hm.perm.mem_iff.1 ha)
  obtain ⟨l, hl, hxl⟩ := List.mem_flatten.1 hx
  exact h l hl x hxl

/-! ## Queueing and faults -/

@[simp] theorem Link.arriveAtHead_txQueue (l : Link) : l.arriveAtHead.txQueue = l.txQueue := by
  unfold Link.arriveAtHead
  split <;> rfl
@[simp] theorem Link.arriveAtHead_rxQueue (l : Link) : l.arriveAtHead.rxQueue = l.rxQueue := by
  unfold Link.arriveAtHead
  split <;> rfl
@[simp] theorem Link.arriveAtHead_rx (l : Link) : l.arriveAtHead.rx = l.rx := by
  unfold Link.arriveAtHead
  split <;> rfl
@[simp] theorem Link.arriveAtHead_quiet (l : Link) : l.arriveAtHead.quiet = l.quiet := by
  unfold Link.arriveAtHead
  split <;> rfl
@[simp] theorem Link.arriveAtHead_pulse (l : Link) : l.arriveAtHead.pulse = l.pulse := by
  unfold Link.arriveAtHead
  split <;> rfl
@[simp] theorem Link.arriveAtHead_counts (l : Link) : l.arriveAtHead.counts = l.counts := by
  unfold Link.arriveAtHead
  split <;> rfl
@[simp] theorem Link.arriveAtHead_drops (l : Link) : l.arriveAtHead.drops = l.drops := by
  unfold Link.arriveAtHead
  split <;> rfl

/-- Pushing a notice: the queue takes it while it holds fewer than 24, else the drop is counted by kind (R148). -/
theorem Link.push_queue (f : Frame) (l : Link) :
    ((l.push f).txQueue = l.txQueue ++ [f] ∧ (l.push f).drops = l.drops ∧ l.txQueue.length < Config.txCapacity) ∨
    ((l.push f).txQueue = l.txQueue ∧ (l.push f).drops = l.drops.countKind f.kind ∧
      ¬ l.txQueue.length < Config.txCapacity) := by
  unfold Link.push
  split
  · next h => exact .inl ⟨by simp, by simp, h⟩
  · next h => exact .inr ⟨rfl, rfl, h⟩

theorem push_within (f : Frame) : Within Footprint.notices s (s.modLink (Link.push f)) := by
  constructor
  case pending => rfl
  all_goals
    intro h
    first
      | rfl
      | exact absurd h (by decide)
      | (simp only [State.modLink_link, Link.push]; split <;> simp)

theorem fileFault_within (k : FaultKind) (a : BitVec 4) : Within Footprint.notices s (s.fileFault k a) := by
  unfold State.fileFault
  split
  · exact Within.refl _ s
  · split <;> constructor <;> simp [Footprint.notices]

theorem beginTxqFull_within : Within Footprint.notices s s.beginTxqFull := by
  have h := ((markTxqFull_within s true).mono (q := Footprint.notices) rfl).trans
    (fileFault_within (s.markTxqFull true) .txqFull 0)
  unfold State.beginTxqFull
  dsimp only
  split
  · exact h.trans (push_within _ _)
  · exact h

theorem append_within (f : Frame) : Within Footprint.notices s (s.append f) := by
  unfold State.append
  dsimp only
  split
  · exact push_within s f
  · split
    · exact push_within s f
    · exact (push_within s f).trans (beginTxqFull_within _)

theorem appendAll_within (fs : List Frame) : Within Footprint.notices s (s.appendAll fs) :=
  Within.foldl _ (fun t f => append_within t f) fs s

theorem reportFault_within (k : FaultKind) (a : BitVec 4) : Within Footprint.notices s (s.reportFault k a) := by
  unfold State.reportFault
  dsimp only
  split
  · exact (fileFault_within s k a).trans (append_within _ _)
  · exact fileFault_within s k a

theorem reportChainFull_within (e : Element) : Within Footprint.notices s (s.reportChainFull e) := by
  unfold State.reportChainFull
  split
  · exact Within.refl _ s
  · exact ((markChainFull_within s true).mono rfl).trans (reportFault_within _ _ _)

theorem reportRxqOverrun_within : Within Footprint.notices s s.reportRxqOverrun := by
  unfold State.reportRxqOverrun
  split
  · exact Within.refl _ s
  · exact ((markRxqOverrun_within s true).mono rfl).trans (reportFault_within _ _ _)

theorem popHead_within : Within Footprint.notices s s.popHead := by
  have h : Within Footprint.notices s
      (s.modLink fun l => { l with txQueue := s.link.txQueue.tail,
                                   tx := if s.link.txQueue.tail.isEmpty then .idle else .waiting }) := by
    constructor <;> simp [Footprint.notices]
  unfold State.popHead
  dsimp only
  split
  · exact h.trans ((markTxqFull_within _ false).mono rfl)
  · exact h

theorem queueStatus_within (p : Byte) : Within Footprint.notices s (s.queueStatus p) := append_within s _
theorem queueAnnounce_within (b : Bool) : Within Footprint.notices s (s.queueAnnounce b) := append_within s _

/-! ## Pairing unit and judge -/

theorem pairOwn_within (i : Indication) : Within Footprint.pairing s (s.pairOwn i) := by
  unfold State.pairOwn
  split
  · exact (append_within s _).mono rfl
  · split <;> exact ((modPair_within s _).mono rfl).trans ((append_within _ _).mono rfl)

theorem shown_within (src : BitVec 4) : Within { pair := true } s (s.shown src) := modPair_within s _
theorem pairAdvance_within (t : Nat) : Within { pair := true } s (s.pairAdvance t) := by
  unfold State.pairAdvance
  exact modPair_within s _

theorem numberIndication_within (e : Element) (x : Int) (b : Body) :
    Within Footprint.judging s (s.numberIndication e x b) := by
  unfold State.numberIndication
  split
  · exact (modJudge_within s _).mono rfl
  · exact ((modJudge_within s _).mono rfl).trans ((pairOwn_within _ _).mono rfl)

theorem judgeChain_within (c : Chain) : Within Footprint.judging s (s.judgeChain c) := by
  unfold State.judgeChain
  dsimp only
  split
  · exact numberIndication_within s _ _ _
  · exact (modJudge_within s _).mono rfl

theorem judgeLoss_within (e : Element) (a b : Int) : Within Footprint.judging s (s.judgeLoss e a b) := by
  unfold State.judgeLoss
  dsimp only
  split
  · exact numberIndication_within s _ _ _
  · exact Within.refl _ s

/-! ## Chain tracker -/

theorem closeChains_within (pick : Chain → Bool) : Within Footprint.closing s (s.closeChains pick) := by
  unfold State.closeChains
  exact ((modTracker_within s _).mono rfl).trans
    (Within.foldl _ (fun t c => ((markChainFull_within t false).mono rfl).trans ((judgeChain_within _ c).mono rfl)) _ _)

theorem closeNext_within (pick : Chain → Bool) : Within Footprint.closing s (s.closeNext pick) := by
  have h : ∀ f : Tracker → Tracker, Within Footprint.closing s (s.modTracker f) :=
    fun f => (modTracker_within s f).mono rfl
  unfold State.closeNext
  split
  · exact ((h _).trans ((markChainFull_within _ false).mono rfl)).trans ((judgeChain_within _ _).mono rfl)
  · exact Within.refl _ s

/-- Everything one closing can do: nothing when no chain is picked, else the oldest chain picked leaves the table and goes to
the judge, which does not touch the table (R70). -/
theorem closeNext_cases (pick : Chain → Bool) :
    (s.tracker.chains.find? pick = none ∧ s.closeNext pick = s) ∨
    ∃ c, s.tracker.chains.find? pick = some c ∧
      (s.closeNext pick).tracker = { s.tracker with chains := s.tracker.chains.eraseP pick } ∧
      s.closeNext pick =
        ((s.modTracker fun t => { t with chains := t.chains.eraseP pick }).markChainFull false).judgeChain c := by
  unfold State.closeNext
  split
  · next c h => exact .inr ⟨c, h, ((judgeChain_within _ c).tracker rfl).trans ((markChainFull_within _ false).tracker rfl), rfl⟩
  · next h => exact .inl ⟨h, rfl⟩

theorem setInFlight_within (m : Option ElementSet) : Within Footprint.closing s (s.setInFlight m) :=
  (modTracker_within s _).mono rfl

theorem trackAdvance_within (t : Nat) (r : Bool) :
    ∀ act ∈ s.trackAdvance t r, ∀ u, Within Footprint.closing u (act.2 u) := by
  intro act ha u
  rw [List.eq_of_mem_replicate ha]
  exact closeNext_within u _

theorem trackFire_within (m : ElementSet) (t : Nat) :
    ∀ act ∈ s.trackFire m t, ∀ u, Within Footprint.closing u (act.2 u) := by
  intro act ha u
  rcases List.mem_append.1 ha with h | h
  · rw [List.eq_of_mem_replicate h]
    exact closeNext_within u _
  · rw [List.mem_singleton.1 h]
    exact setInFlight_within u _

theorem trackDisable_within (e : Element) :
    ∀ act ∈ s.trackDisable e, ∀ u, Within Footprint.closing u (act.2 u) := by
  intro act ha u
  rw [List.eq_of_mem_replicate ha]
  exact closeNext_within u _

theorem trackRunEnd_within : Within Footprint.closing s s.trackRunEnd := closeChains_within s _

theorem trackHalt_within : Within Footprint.closing s s.trackHalt := by
  have h : ∀ f : Tracker → Tracker, Within Footprint.closing s (s.modTracker f) :=
    fun f => (modTracker_within s f).mono rfl
  unfold State.trackHalt
  dsimp only
  split
  · exact h _
  · exact (h _).trans ((markChainFull_within _ _).mono rfl)

theorem trackRunStart_within : Within Footprint.closing s s.trackRunStart := by
  have h : ∀ f : Tracker → Tracker, Within Footprint.closing s (s.modTracker f) :=
    fun f => (modTracker_within s f).mono rfl
  exact (h _).trans ((markChainFull_within _ _).mono rfl)

theorem judgeRunStart_within : Within { judge := true } s s.judgeRunStart := modJudge_within s _

theorem startChain_within (r : ShotResult) (x : Echo) : Within Footprint.closing s (s.startChain r x) := by
  have h : ∀ f : Tracker → Tracker, Within Footprint.closing s (s.modTracker f) :=
    fun f => (modTracker_within s f).mono rfl
  unfold State.startChain
  split
  · exact h _
  · exact (h _).trans ((reportChainFull_within _ _).mono rfl)

theorem assignEcho_within (r : ShotResult) (x : Echo) (o : List Open) :
    Within Footprint.closing s (s.assignEcho r x o).2 := by
  have h : ∀ f : Tracker → Tracker, Within Footprint.closing s (s.modTracker f) :=
    fun f => (modTracker_within s f).mono rfl
  unfold State.assignEcho
  split
  · dsimp only
    exact h _
  · exact startChain_within s r x

theorem assignResult_within (r : ShotResult) : Within Footprint.closing s (s.assignResult r) := by
  have h : ∀ (xs : List Echo) (acc : List Open × State),
      Within Footprint.closing acc.2
        (xs.foldl (fun (acc : List Open × State) x => acc.2.assignEcho r x acc.1) acc).2 := by
    intro xs
    induction xs with
    | nil => exact fun acc => Within.refl _ _
    | cons x xs ih => exact fun acc => (assignEcho_within acc.2 r x acc.1).trans (ih _)
  exact h r.echoes (s.openFor r, s)

theorem trackListeningEnd_within (m : ElementSet) (rs : List ShotResult) :
    ∀ act ∈ s.trackListeningEnd m rs, ∀ u, Within Footprint.closing u (act.2 u) := by
  intro act ha u
  rcases List.mem_append.1 ha with h | h
  · rcases List.mem_append.1 h with h | h
    · obtain ⟨r, -, rfl⟩ := List.mem_map.1 h
      exact assignResult_within u r
    · rw [List.mem_singleton.1 h]
      exact setInFlight_within u _
  · rw [List.eq_of_mem_replicate h]
    exact closeNext_within u _

/-! ## Coverage monitor -/

theorem modElementCover_within (e : Element) (f : ElementCover → ElementCover) :
    Within { cover := true } s (s.modElementCover e f) := modCover_within s _

theorem queueGaps_within (cs : List GapChange) : Within Footprint.notices s (s.queueGaps cs) := appendAll_within s _

theorem applyRequests_within (qs : List CauseRequest) : Within { cover := true } s (s.applyRequests qs) :=
  Within.foldl _ (fun t _ => modElementCover_within t _ _) qs s

theorem causeActs_within (qs : List CauseRequest) :
    ∀ act ∈ s.causeActs qs, ∀ u, Within Footprint.gaps u (act u) := by
  intro act ha u
  unfold State.causeActs at ha
  split at ha
  · rcases List.mem_cons.1 ha with rfl | ha
    · exact (applyRequests_within u qs).mono rfl
    · obtain ⟨g, -, rfl⟩ := List.mem_map.1 ha
      exact (append_within u _).mono rfl
  · simp at ha

theorem requestCauses_within (qs : List CauseRequest) : Within Footprint.gaps s (s.requestCauses qs) :=
  acts_within s _ (causeActs_within s qs)

theorem requestForAll_within (m : ElementSet) (c : Cause) (b : Bool) :
    Within Footprint.gaps s (s.requestForAll m c b) := requestCauses_within s _

theorem coupledShot_within (r : ShotResult) : Within Footprint.gaps s (s.coupledShot r) := by
  unfold State.coupledShot
  dsimp only
  split
  · exact (modElementCover_within s _ _).mono rfl
  · split
    · exact (modElementCover_within s _ _).mono rfl
    · split
      · exact ((modElementCover_within s _ _).mono rfl).trans (requestCauses_within _ _)
      · exact Within.refl _ s

theorem uncoupledShot_within (r : ShotResult) : Within Footprint.gaps s (s.uncoupledShot r) := by
  unfold State.uncoupledShot
  dsimp only
  split
  · split
    · exact (modElementCover_within s _ _).mono rfl
    · split
      · exact ((modElementCover_within s _ _).mono rfl).trans (requestCauses_within _ _)
      · exact Within.refl _ s
  · exact (modElementCover_within s _ _).mono rfl

theorem coupleShot_within (r : ShotResult) : Within Footprint.gaps s (s.coupleShot r) := by
  unfold State.coupleShot
  split
  · exact coupledShot_within s r
  · exact uncoupledShot_within s r

theorem backWallShot_within (r : ShotResult) : Within Footprint.covering s (s.backWallShot r) := by
  unfold State.backWallShot
  dsimp only
  split
  · split
    · exact (modElementCover_within s _ _).mono rfl
    · exact Within.refl _ s
  · exact ((modElementCover_within s _ _).mono rfl).trans ((judgeLoss_within _ _ _ _).mono rfl)
  · exact Within.refl _ s
  · exact Within.refl _ s
  · exact Within.refl _ s

theorem coverCoupling_within (r : ShotResult) : Within Footprint.gaps s (s.coverCoupling r) := by
  unfold State.coverCoupling
  split
  · exact coupleShot_within s r
  · exact Within.refl _ s

theorem coverBackWall_within (r : ShotResult) : Within Footprint.covering s (s.coverBackWall r) := by
  unfold State.coverBackWall
  split
  · exact backWallShot_within s r
  · exact Within.refl _ s

theorem coverResult_within (r : ShotResult) : Within Footprint.covering s (s.coverResult r) :=
  ((coverCoupling_within s r).mono rfl).trans (coverBackWall_within _ r)

theorem coverResults_within (rs : List ShotResult) :
    ∀ act ∈ coverResults rs, ∀ u, Within Footprint.covering u (act.2 u) := by
  intro act ha u
  obtain ⟨r, -, hr⟩ := List.mem_flatMap.1 ha
  simp only [List.mem_cons, List.not_mem_nil, or_false] at hr
  rcases hr with rfl | rfl
  · exact (coverCoupling_within u r).mono rfl
  · exact coverBackWall_within u r

theorem coverAdvance_within (t : Nat) : Within Footprint.gaps s (s.coverAdvance t) := by
  unfold State.coverAdvance
  dsimp only
  split
  · split
    · exact (((modCover_within s _).mono rfl).trans ((append_within _ _).mono rfl)).trans
        ((modCover_within _ _).mono rfl)
    · exact (modCover_within s _).mono rfl
  · exact Within.refl _ s

theorem coverLifted_within : Within Footprint.gaps s s.coverLifted := by
  unfold State.coverLifted
  split
  · exact ((modCover_within s _).mono rfl).trans (requestForAll_within _ _ _ _)
  · exact Within.refl _ s

theorem coverLowered_within : Within Footprint.gaps s s.coverLowered := requestForAll_within s _ _ _

theorem coverDisable_within (e : Element) : Within Footprint.gaps s (s.coverDisable e) := by
  unfold State.coverDisable
  split
  · exact ((modElementCover_within s _ _).mono rfl).trans (requestCauses_within _ _)
  · exact Within.refl _ s

theorem coverHalt_within : Within Footprint.gaps s s.coverHalt := by
  unfold State.coverHalt
  split
  · exact ((modCover_within s _).mono rfl).trans (requestForAll_within _ _ _ _)
  · exact Within.refl _ s

theorem closeLosses_within : Within Footprint.covering s s.closeLosses := by
  apply Within.foldl
  intro t e
  split
  · exact ((modElementCover_within t _ _).mono rfl).trans ((judgeLoss_within _ _ _ _).mono rfl)
  · exact Within.refl _ t

theorem closeGaps_within : Within Footprint.gaps s s.closeGaps :=
  ((modCover_within s _).mono rfl).trans ((queueGaps_within _ _).mono rfl)

theorem reportPartialSpan_within : Within Footprint.notices s s.reportPartialSpan := by
  unfold State.reportPartialSpan
  dsimp only
  split
  · exact append_within s _
  · exact Within.refl _ s

theorem coverRunEnd_within : Within Footprint.covering s s.coverRunEnd :=
  (((closeLosses_within s).trans ((closeGaps_within _).mono rfl)).trans
    ((reportPartialSpan_within _).mono rfl)).trans ((modCover_within _ _).mono rfl)

theorem coverRunStart_within : Within { cover := true } s s.coverRunStart := modCover_within s _
theorem pairRunStart_within : Within { pair := true } s s.pairRunStart := modPair_within s _
theorem pairRunEnd_within : Within { pair := true } s s.pairRunEnd := modPair_within s _

/-! ## Scheduler and pulser bank -/

theorem latchShot_within (taken : List Element) (peaks : Eight Nat) : Within Footprint.firing s (s.latchShot taken peaks) :=
  ((modSched_within s _).mono rfl).trans ((modPulser_within _ _).mono rfl)

theorem unmask_within (e : Element) : Within { mask := true } s (s.unmask e) := by
  constructor <;> simp [State.unmask]

theorem disableActs_within (e : Element) :
    ∀ act ∈ s.disableActs e, ∀ u, Within Footprint.disabling u (act.2 u) := by
  intro act ha u
  simp only [State.disableActs, List.mem_cons, List.mem_append, List.not_mem_nil, or_false] at ha
  rcases ha with rfl | ha | rfl | rfl
  · exact (unmask_within u e).mono rfl
  · exact (trackDisable_within s e act ha u).mono rfl
  · exact (reportFault_within u _ _).mono rfl
  · exact (coverDisable_within u e).mono rfl

theorem disableElement_within (e : Element) : Within Footprint.disabling s (s.disableElement e) := by
  have h : ∀ l : List Act, (∀ act ∈ l, ∀ u, Within Footprint.disabling u (act.2 u)) →
      ∀ t, Within Footprint.disabling t (l.foldl (fun t act => act.2 t) t) := by
    intro l
    induction l with
    | nil => exact fun _ t => Within.refl _ t
    | cons a l ih => exact fun hl t => (hl a (by simp) t).trans (ih (fun b hb => hl b (by simp [hb])) _)
  exact h _ (disableActs_within s e) s

theorem fireLanes_within (taken : List Element) (peaks : Eight Nat) :
    ∀ l ∈ s.fireLanes taken peaks, ∀ act ∈ l, ∀ u, Within Footprint.disabling u (act.2 u) := by
  intro l hl act ha u
  simp only [State.fireLanes, List.mem_cons, List.not_mem_nil, or_false] at hl
  rcases hl with rfl | rfl
  · exact (trackFire_within s _ _ act ha u).mono rfl
  · rcases List.mem_append.1 ha with ha | ha
    · obtain ⟨f, hf, rfl⟩ := List.mem_map.1 ha
      exact (causeActs_within s _ f hf u).mono rfl
    · obtain ⟨e, -, he⟩ := List.mem_flatMap.1 ha
      exact disableActs_within s e act he u

theorem fire_within (ord : Nat → Nat → Nat) (taken : List Element) (peaks : Eight Nat) :
    Within Footprint.attempt s (s.fire ord taken peaks) :=
  ((latchShot_within s taken peaks).mono rfl).trans
    (inFreeOrder_within _ _ _ (fun l hl act ha u => (fireLanes_within s taken peaks l hl act ha u).mono rfl) rfl)

theorem attempt_within (ord : Nat → Nat → Nat) (peaks : Eight Nat) :
    Within Footprint.attempt s (s.attempt ord peaks) := by
  unfold State.attempt
  split
  · exact Within.refl _ s
  · exact fire_within s ord _ peaks

theorem schedRunning_within : Within Footprint.firing s s.schedRunning := by
  unfold State.schedRunning
  split
  · dsimp only
    split <;> exact ((modPulser_within s _).mono rfl).trans (setSched_within _ _)
  all_goals exact Within.refl _ s

theorem schedLifted_within : Within Footprint.firing s s.schedLifted := by
  unfold State.schedLifted
  split <;> first | exact Within.refl _ s | exact setSched_within s _

theorem schedStill_within : Within Footprint.firing s s.schedStill := by
  unfold State.schedStill
  split <;> first | exact Within.refl _ s | exact schedOffHvOff_within s

theorem schedStop_within : Within Footprint.firing s s.schedStop := by
  unfold State.schedStop
  split
  · exact Within.refl _ s
  all_goals exact schedOffHvOff_within s

theorem schedHalt_within : Within Footprint.firing s s.schedHalt := schedOffHvOff_within s

theorem schedRunStart_within : Within Footprint.firing s s.schedRunStart :=
  ((modSched_within s _).mono rfl).trans ((modPulser_within _ _).mono rfl)

/-! ## Station control -/

theorem enterStill_within : Within Footprint.stations s s.enterStill :=
  (((setStation_within s _).mono rfl).trans ((schedStill_within _).mono rfl)).trans ((queueStatus_within _ _).mono rfl)

theorem enterLifted_within : Within Footprint.stations s s.enterLifted := by
  have h : Within Footprint.stations s
      (s.modControl fun c => { c with state := .lifted, liftFromStill := c.state == .still }) := by
    constructor <;> simp [Footprint.stations]
  exact ((h.trans ((schedLifted_within _).mono rfl)).trans ((coverLifted_within _).mono rfl)).trans
    ((queueStatus_within _ _).mono rfl)

theorem leaveStill_within : Within Footprint.stations s s.leaveStill :=
  ((setStation_within s _).mono rfl).trans ((schedRunning_within _).mono rfl)

theorem leaveLifted_within (ord : Nat → Nat → Nat) (peaks : Eight Nat) :
    Within Footprint.stations s (s.leaveLifted ord peaks) := by
  have h : Within Footprint.stations s
      (s.modControl fun c => { c with state := .running, liftFromStill := false }) := by
    constructor <;> simp [Footprint.stations]
  exact (((h.trans ((coverLowered_within _).mono rfl)).trans ((schedRunning_within _).mono rfl)).trans
    ((attempt_within _ _ _).mono rfl)).trans ((queueStatus_within _ _).mono rfl)

theorem tellStill_within : Within Footprint.stations s s.tellStill := by
  unfold State.tellStill
  split <;> first | exact enterStill_within s | exact Within.refl _ s

theorem tellLift_within (ord : Nat → Nat → Nat) (peaks : Eight Nat) (l : LiftState) :
    Within Footprint.stations s (s.tellLift ord peaks l) := by
  unfold State.tellLift
  split <;> first
    | exact enterLifted_within s
    | exact leaveLifted_within s ord peaks
    | exact Within.refl _ s

theorem tellFirstEdge_within : Within Footprint.stations s s.tellFirstEdge := by
  unfold State.tellFirstEdge
  split <;> first | exact leaveStill_within s | exact Within.refl _ s

theorem acceptHalt_within : Within Footprint.stations s s.acceptHalt := by
  have h : Within Footprint.stations s
      (s.modControl fun c => { c with state := .halted, liftFromStill := false }) := by
    constructor <;> simp [Footprint.stations]
  exact (((h.trans ((schedHalt_within _).mono rfl)).trans ((trackHalt_within _).mono rfl)).trans
    ((coverHalt_within _).mono rfl)).trans ((queueStatus_within _ _).mono rfl)

theorem workHalt_within : Within Footprint.stations s s.workHalt := by
  unfold State.workHalt
  split <;> first | exact acceptHalt_within s | exact Within.refl _ s

theorem acceptStop_within : Within Footprint.requests s s.acceptStop := by
  have h : Within Footprint.requests s
      (s.modControl fun c => { c with state := .ready, runEndPending := true, liftFromStill := false }) := by
    constructor <;> simp [Footprint.requests]
  exact (h.trans ((schedStop_within _).mono rfl)).trans ((queueStatus_within _ _).mono rfl)

theorem workStop_within : Within Footprint.requests s s.workStop := by
  unfold State.workStop
  split <;> first | exact acceptStop_within s | exact Within.refl _ s

theorem applyRunEnd_within : Within Footprint.requests s s.applyRunEnd := by
  have h : ∀ t : State, Within Footprint.requests t
      (t.modControl fun c => { c with runEndPending := false }) := by
    intro t
    constructor <;> simp [Footprint.requests]
  exact ((((trackRunEnd_within s).mono rfl).trans ((coverRunEnd_within _).mono rfl)).trans
    ((pairRunEnd_within _).mono rfl)).trans (h _)

theorem applyRunStart_within (n : BitVec 16) (start : Int) : Within Footprint.requests s (s.applyRunStart n start) := by
  have h1 : Within Footprint.requests s
      (s.modControl fun c => { c with runNumber := n, runEndPending := false }) := by
    constructor <;> simp [Footprint.requests]
  have h2 : ∀ t : State, Within Footprint.requests t
      (t.modControl fun c => { c with enableMask := c.configuredMask }) := by
    intro t
    constructor <;> simp [Footprint.requests]
  have h3 := (h1.trans ((modOdo_within _ (Odometer.runStart start)).mono rfl)).trans (h2 _)
  have h4 := h3.trans ((schedRunStart_within _).mono rfl)
  have h5 := (h4.trans ((trackRunStart_within _).mono rfl)).trans ((judgeRunStart_within _).mono rfl)
  exact (h5.trans ((coverRunStart_within _).mono rfl)).trans ((pairRunStart_within _).mono rfl)

theorem acceptRun_within (n : BitVec 16) (start : Int) : Within Footprint.requests s (s.acceptRun n start) := by
  have h := ((((applyRunStart_within s n start).trans ((setStation_within _ .running).mono rfl)).trans
    ((queueAnnounce_within _ false).mono rfl)).trans ((queueStatus_within _ 0).mono rfl)).trans
    ((schedRunning_within _).mono rfl)
  have lifted : ∀ t : State, Within Footprint.requests t t.enterLifted := by
    intro t
    have h0 : Within Footprint.requests t
        (t.modControl fun c => { c with state := .lifted, liftFromStill := c.state == .still }) := by
      constructor <;> simp [Footprint.requests]
    exact ((h0.trans ((schedLifted_within _).mono rfl)).trans ((coverLifted_within _).mono rfl)).trans
      ((queueStatus_within _ _).mono rfl)
  unfold State.acceptRun
  dsimp only
  split
  · exact h.trans (lifted _)
  · exact h

theorem workRun_within (n : BitVec 16) (start : BitVec 32) : Within Footprint.requests s (s.workRun n start) := by
  unfold State.workRun
  split
  · exact (count_within s _).mono rfl
  · split <;> first
      | exact acceptRun_within s n _
      | exact (queueStatus_within s _).mono rfl
      | exact Within.refl _ s

theorem workClear_within : Within Footprint.notices s s.workClear := by constructor <;> simp [State.workClear, Footprint.notices]

theorem workQuery_within (p : Byte) : Within Footprint.notices s (s.workQuery p) := queueStatus_within s _

/-! ## Odometer -/

theorem advanceLanes_within (a : Advance) :
    ∀ l ∈ s.advanceLanes a, ∀ act ∈ l, ∀ u, Within Footprint.results u (act.2 u) := by
  intro l hl act ha u
  simp only [State.advanceLanes, List.mem_cons, List.not_mem_nil, or_false] at hl
  rcases hl with rfl | rfl | rfl | rfl
  · split at ha
    · rw [List.mem_singleton.1 ha]
      exact (queueStatus_within u 0).mono rfl
    · simp at ha
  · exact (trackAdvance_within s _ _ act ha u).mono rfl
  · rw [List.mem_singleton.1 ha]
    exact (coverAdvance_within u _).mono rfl
  · rw [List.mem_singleton.1 ha]
    exact (pairAdvance_within u _).mono rfl

theorem handAdvance_within (ord : Nat → Nat → Nat) (peaks : Eight Nat) (a : Advance) :
    Within Footprint.stations s (s.handAdvance ord peaks a) := by
  have moving : Within Footprint.stations s (if a.afterStill then s.tellFirstEdge else s) := by
    split
    · exact tellFirstEdge_within s
    · exact Within.refl _ s
  unfold State.handAdvance
  dsimp only
  generalize (if a.afterStill then s.tellFirstEdge else s) = m at moving ⊢
  split
  · exact moving.trans
      (inFreeOrder_within _ _ _ (fun l hl act ha u => (advanceLanes_within s a l hl act ha u).mono rfl) rfl)
  · refine (moving.trans ((latchShot_within _ _ _).mono rfl)).trans (inFreeOrder_within _ _ _ ?_ rfl)
    intro l hl act ha u
    rcases List.mem_append.1 hl with hl | hl
    · exact (advanceLanes_within s a l hl act ha u).mono rfl
    · exact (fireLanes_within _ _ _ l hl act ha u).mono rfl

theorem acceptEdge_within (ord : Nat → Nat → Nat) (peaks : Eight Nat) (d : Int) :
    Within Footprint.edges s (s.acceptEdge ord peaks d) :=
  ((modOdo_within s _).mono rfl).trans ((handAdvance_within _ _ _ _).mono rfl)

theorem acceptLevels_within (ord : Nat → Nat → Nat) (lines : AcceptedLines) (peaks : Eight Nat) :
    Within Footprint.edges s (s.acceptLevels ord lines peaks) := by
  have h := (modOdo_within s (Odometer.accept lines s.pins.encA s.pins.encB)).mono (q := Footprint.edges) rfl
  unfold State.acceptLevels
  dsimp only
  split
  · exact h
  · exact h.trans (acceptEdge_within _ _ _ _)
  · exact h.trans (acceptEdge_within _ _ _ _)
  · exact h.trans ((reportFault_within _ _ _).mono rfl)

/-- The travel advance leaves the odometer as the edge left it: no block that hears of it changes the odometer (R7). -/
theorem acceptEdge_odo (ord : Nat → Nat → Nat) (peaks : Eight Nat) (d : Int) :
    (s.acceptEdge ord peaks d).odo = s.odo.edge s.station.edgePitch s.station.hysteresis d :=
  (handAdvance_within _ _ _ _).odo rfl

end Sys2Proof.Machine
end

