-- ==== Sys2Proof/Laws/Ops.lean ====
section
/-! SUPPORT. What the shared operations do, said once by case: queueing a notice, reporting a fault, taking a frame from
either queue, pulses on the line, the samples of a gate and their peak, one block's view of a free order, saturating
arithmetic and car positions. -/

namespace Sys2Proof.Machine

variable (s : State)

/-! ## Saturation -/

theorem sat16_le (n : Nat) : sat16 n ≤ Config.counterMax := Nat.min_le_right _ _
theorem sat16_of_le {n : Nat} (h : n ≤ Config.counterMax) : sat16 n = n := Nat.min_eq_left h
theorem bump_le (n : Nat) : bump n ≤ Config.counterMax := sat16_le _
theorem bump_of_lt {n : Nat} (h : n < Config.counterMax) : bump n = n + 1 := sat16_of_le h
theorem le_bump {n : Nat} (h : n ≤ Config.counterMax) : n ≤ bump n := by
  unfold bump sat16
  omega

/-- A saturated position lies in the signed 32-bit range (R14). -/
theorem satPosition_range (x : Int) :
    Config.positionMin ≤ satPosition x ∧ satPosition x ≤ Config.positionMax := by
  unfold satPosition Config.positionMin Config.positionMax
  omega

/-- A position in range is kept (R14). -/
theorem satPosition_of_range {x : Int} (h : Config.positionMin ≤ x ∧ x ≤ Config.positionMax) : satPosition x = x := by
  unfold satPosition
  omega

/-- The fine position of a number of micrometres stands for that number, with a remainder of 0 to 999. -/
theorem ofMicros_micros (v : Int) : (FinePos.ofMicros v).micros = v ∧ (FinePos.ofMicros v).um ≤ 999 := by
  unfold FinePos.ofMicros FinePos.micros
  constructor
  · dsimp only
    omega
  · dsimp only
    omega

/-! ## Queueing a notice (R148, R149) -/

theorem append_room (f : Frame) (h : s.link.txQueue.length < Config.txCapacity) :
    s.append f = s.modLink (Link.push f) := by
  simp [State.append, h]

theorem append_full_marked (f : Frame) (h : ¬ s.link.txQueue.length < Config.txCapacity)
    (m : s.control.episodes.txqFull = true) : s.append f = s.modLink (Link.push f) := by
  simp [State.append, h, m]

theorem append_full_clear (f : Frame) (h : ¬ s.link.txQueue.length < Config.txCapacity)
    (m : s.control.episodes.txqFull = false) : s.append f = (s.modLink (Link.push f)).beginTxqFull := by
  simp [State.append, h, m]

/-- A queue with room takes the notice at its tail, and nothing else of the queue or of station control changes. -/
theorem append_room_queue (f : Frame) (h : s.link.txQueue.length < Config.txCapacity) :
    (s.append f).link.txQueue = s.link.txQueue ++ [f] ∧ (s.append f).link.drops = s.link.drops ∧
      (s.append f).control = s.control := by
  rw [append_room s f h]
  simp [Link.push, h]

/-- Arriving at the head of the queue changes the transmitter's state at most, as `Link.txOnQueueing` says (R142). -/
theorem Link.arriveAtHead_eq (l : Link) : l.arriveAtHead = { l with tx := l.txOnQueueing } := by
  obtain ⟨_, _, tx, rx, _, pulse, _, _⟩ := l
  cases tx <;> cases rx <;> cases pulse <;> rfl

/-- A frame that finds room is queued, in the statements' words; one that finds none is counted. -/
theorem Link.push_eq (f : Frame) (l : Link) :
    l.push f =
      if l.txQueue.length < Config.txCapacity then l.queueing [f]
      else { l with drops := l.drops.countKind f.kind } := by
  unfold Link.push
  split
  · rw [Link.arriveAtHead_eq]
    rfl
  · rfl

section
variable (l : Link) (new more : List Frame)
@[simp] theorem Link.queueing_txQueue : (l.queueing new).txQueue = l.txQueue ++ new := rfl
@[simp] theorem Link.queueing_rxQueue : (l.queueing new).rxQueue = l.rxQueue := rfl
@[simp] theorem Link.queueing_rx : (l.queueing new).rx = l.rx := rfl
@[simp] theorem Link.queueing_pulse : (l.queueing new).pulse = l.pulse := rfl
@[simp] theorem Link.queueing_quiet : (l.queueing new).quiet = l.quiet := rfl
@[simp] theorem Link.queueing_counts : (l.queueing new).counts = l.counts := rfl
@[simp] theorem Link.queueing_drops : (l.queueing new).drops = l.drops := rfl
@[simp] theorem Link.queueing_nil : l.queueing [] = l := by simp [Link.queueing]

/-- Once a frame has been queued, another changes the transmitter's state no further (R142). -/
theorem Link.txOnQueueing_idem : ({ l with tx := l.txOnQueueing } : Link).txOnQueueing = l.txOnQueueing := by
  obtain ⟨_, _, tx, rx, _, pulse, _, _⟩ := l
  cases tx <;> cases rx <;> cases pulse <;> rfl

/-- Notices queued one after another are queued together. -/
theorem Link.queueing_queueing : (l.queueing new).queueing more = l.queueing (new ++ more) := by
  cases new with
  | nil => simp
  | cons f new =>
    cases more with
    | nil => simp
    | cons g more =>
      simp only [Link.queueing, List.append_assoc, reduceCtorEq, if_false, List.cons_append]
      rw [show Link.txOnQueueing { l with txQueue := l.txQueue ++ f :: new, tx := l.txOnQueueing } = l.txOnQueueing
        from Link.txOnQueueing_idem l]
end

/-- Taking the head of the receive queue, written out (R120, R152, R153). -/
theorem takeHead_room (src : BitVec 4) : (s.takeHead src).link.txQueue = s.link.txQueue := by
  unfold State.takeHead
  dsimp only
  split <;> rfl

/-! ## Reporting a fault (R172, R173) -/

theorem reportFault_overflowed (k : FaultKind) (a : BitVec 4) (h : s.control.faults.overflow = true) :
    s.reportFault k a = s := by
  simp [State.reportFault, State.fileFault, State.faultNoticeFor, h]

theorem reportFault_room (k : FaultKind) (a : BitVec 4) (h : s.control.faults.overflow = false)
    (r : s.control.faults.records.length < Config.faultCapacity) :
    s.reportFault k a =
      (s.modControl fun c =>
        { c with faults := { c.faults with records := c.faults.records ++ [s.faultRecord k a] } }).append
        (faultNotice s.control.address (s.faultRecord k a)) := by
  simp [State.reportFault, State.fileFault, State.faultNoticeFor, h, r]

theorem reportFault_full (k : FaultKind) (a : BitVec 4) (h : s.control.faults.overflow = false)
    (r : ¬ s.control.faults.records.length < Config.faultCapacity) :
    s.reportFault k a =
      (s.modControl fun c => { c with faults := { c.faults with overflow := true } }).append s.overflowNotice := by
  simp [State.reportFault, State.fileFault, State.faultNoticeFor, h, r]

/-! ## The receive queue (R152, R153) -/

/-- The head of the receive queue is dispatched as the command it stands for. -/
theorem dispatchAs_waiting {c : Instr} {f : Frame} {rest : List Frame} (work : State → State)
    (hq : s.link.rxQueue = f :: rest) (hc : frameCommand f = c) (ht : s.canTake f = true) :
    s.dispatchAs c work = work (s.takeHead f.source) := by
  unfold State.dispatchAs State.headReady
  simp only [hq, List.head?_cons, Option.map_some, hc]
  cases commandFrame c <;> simp [hq, hc, ht]

/-- A head its block cannot take stays where it is. -/
theorem dispatchAs_held {c : Instr} {f : Frame} {rest : List Frame} (work : State → State)
    (hq : s.link.rxQueue = f :: rest) (hc : frameCommand f = c) (ht : s.canTake f = false) :
    s.dispatchAs c work = s := by
  unfold State.dispatchAs State.headReady
  simp only [hq, List.head?_cons, Option.map_some, hc]
  cases commandFrame c <;> simp [hq, hc, ht]

/-- Taking the head changes the receive queue, the RXQ_OVERRUN mark and the liveness of the sender, and nothing else. -/
theorem takeHead_eq (src : BitVec 4) :
    s.takeHead src =
      (if s.link.rxQueue.tail.isEmpty then
        (s.modLink fun l => { l with rxQueue := s.link.rxQueue.tail }).markRxqOverrun false
       else s.modLink fun l => { l with rxQueue := s.link.rxQueue.tail }).shown src := rfl

/-! ## Pulses on the line (R137, R138) -/

section
variable (l : Link) (ns : Nat)
@[simp] theorem Link.rise_pulse : l.rise.pulse = some (l.pulse.getD 0) := rfl
@[simp] theorem Link.rise_rx : l.rise.rx = l.rx := rfl
@[simp] theorem Link.release_pulse : l.release.pulse = none := rfl
@[simp] theorem Link.release_quiet : l.release.quiet = 0 := rfl
@[simp] theorem Link.release_rx : l.release.rx = l.rx := rfl
@[simp] theorem Link.release_tx : l.release.tx = l.tx := rfl
@[simp] theorem Link.release_txQueue : l.release.txQueue = l.txQueue := rfl
@[simp] theorem Link.release_counts : l.release.counts = l.counts := rfl

/-- The length of a pulse at its release, written out. -/
theorem Link.heldNanos_eq : l.heldNanos ns = max ns (20 * l.pulse.getD 0) := by
  unfold Link.heldNanos
  split <;> simp_all [Config.tickNanos]

/-- A noise pulse takes the pulse off the line and gives the time it stood to the recessive time, and nothing else. -/
theorem Link.releaseNoise_eq :
    l.releaseNoise =
      { l with
        pulse := none
        quiet := match l.pulse with
          | none => l.quiet
          | some held => min (l.quiet + held) 2000 } := by
  obtain ⟨_, _, _, _, _, pulse, _, _⟩ := l
  cases pulse <;> rfl
end

/-- Nothing heard changes nothing, or is the transmit error of a SENDING transmitter with a 0 still unheard (R144). -/
theorem onTransmitError_nothing :
    (s.onTransmitError .nothing = s ∧ ¬ (s.link.tx = .sending ∧ s.link.pulse = none ∧ s.zeroUnheard = true)) ∨
      (s.onTransmitError .nothing = (s.modLink Link.markStopped).transmitError ∧
        s.link.tx = .sending ∧ s.link.pulse = none ∧ s.zeroUnheard = true) := by
  unfold State.onTransmitError
  by_cases h : s.link.tx = .sending
  · by_cases g : s.link.pulse = none ∧ s.zeroUnheard = true
    · exact .inr ⟨by simp [h, g], h, g⟩
    · exact .inl ⟨by simp [h, g], fun k => g k.2⟩
  · exact .inl ⟨by simp [h], fun k => h k.1⟩

/-! ## The receiver and gate processor -/

/-- A trace has one amplitude for every tick of its window, 0 where no sample was given (R38). -/
theorem traceSamples_getElem? (v t : Nat) (trace : List Byte) :
    (traceSamples v trace)[t]? = if t < v then some (byteAt trace t).toNat else none := by
  unfold traceSamples byteAt
  rw [List.getElem?_append, List.getElem?_map, List.getElem?_take, List.getElem?_replicate, List.length_map,
    List.length_take]
  by_cases hv : t < v
  · by_cases hl : t < trace.length
    · simp [hv, hl]
    · have h : ¬ t < min v trace.length := by omega
      have h' : t - min v trace.length < v - trace.length := by omega
      simp [hv, h, h', List.getElem?_eq_none (Nat.le_of_not_lt hl)]
  · have h : ¬ t < min v trace.length := by omega
    have h' : ¬ t - min v trace.length < v - trace.length := by omega
    simp [hv, h, h']

theorem stampFrom_getElem? (t k : Nat) (l : List Nat) : (stampFrom t l)[k]? = l[k]?.map fun a => ⟨t + k, a⟩ := by
  induction l generalizing t k with
  | nil => rfl
  | cons a rest ih =>
    cases k with
    | zero => rfl
    | succ k => simp [stampFrom, ih, Nat.add_assoc, Nat.add_comm 1 k]

/-- The sample of a gate at its `k`-th tick, inside the gate and the trace (R42, R45). -/
theorem gateSamples_getElem? (samples : List Nat) (ref lo hi k : Nat) :
    (gateSamples samples ref lo hi)[k]? =
      if lo + k ≤ hi then samples[ref + lo + k]?.map fun a => ⟨lo + k, a⟩ else none := by
  unfold gateSamples
  rw [stampFrom_getElem?, List.getElem?_take, List.getElem?_drop]
  by_cases h : lo + k ≤ hi
  · have h' : k < hi + 1 - lo := by omega
    simp [h, h']
  · have h' : ¬ k < hi + 1 - lo := by omega
    simp [h, h']

/-- The peak of a run is a sample of it, none is larger, and every earlier one is smaller (R43, R49). -/
theorem peakSample_spec (first : Sample) (rest : List Sample) :
    ∃ before after, first :: rest = before ++ peakSample first rest :: after ∧
      (∀ x ∈ before, x.amp < (peakSample first rest).amp) ∧ ∀ x ∈ after, x.amp ≤ (peakSample first rest).amp := by
  unfold peakSample
  induction rest generalizing first with
  | nil => exact ⟨[], [], rfl, nofun, nofun⟩
  | cons y rest ih =>
    rw [List.foldl_cons]
    by_cases h : first.amp < y.amp
    · rw [if_pos h]
      obtain ⟨before, after, he, hb, ha⟩ := ih y
      refine ⟨first :: before, after, by rw [he]; rfl, ?_, ha⟩
      intro x hx
      rcases List.mem_cons.1 hx with rfl | hx
      · have : y ∈ before ++ _ :: after := he ▸ List.mem_cons_self
        rcases List.mem_append.1 this with hy | hy
        · exact Nat.lt_trans h (hb y hy)
        · rcases List.mem_cons.1 hy with hy | hy
          · rw [← hy]; exact h
          · exact Nat.lt_of_lt_of_le h (ha y hy)
      · exact hb x hx
    · rw [if_neg h]
      obtain ⟨before, after, he, hb, ha⟩ := ih first
      cases before with
      | nil =>
        simp only [List.nil_append, List.cons.injEq] at he
        refine ⟨[], y :: after, by rw [← he.1, ← he.2]; rfl, nofun, ?_⟩
        intro x hx
        rcases List.mem_cons.1 hx with rfl | hx
        · rw [← he.1]; exact Nat.le_of_not_lt h
        · exact ha x hx
      | cons b before =>
        simp only [List.cons_append, List.cons.injEq] at he
        obtain ⟨rfl, he⟩ := he
        refine ⟨first :: y :: before, after, congrArg (fun l => first :: y :: l) he, ?_, ha⟩
        intro x hx
        rcases List.mem_cons.1 hx with rfl | hx
        · exact hb x List.mem_cons_self
        · rcases List.mem_cons.1 hx with rfl | hx
          · exact Nat.lt_of_le_of_lt (Nat.le_of_not_lt h) (hb first List.mem_cons_self)
          · exact hb x (List.mem_cons_of_mem _ hx)

/-! ## One block's view of a free order (assumption log 1) -/

/-- In every merge of lanes, what is seen of one lane's block ends as after that lane alone: when the other lanes' acts
leave it as it was, and what the lane's own acts make of it depends on nothing else. -/
theorem Merges.view {β : Type} (v : State → β) {busy : List Mark} {lanes : List (List Act)} {out : List (State → State)}
    (h : Merges busy lanes out) (i : Nat)
    (others : ∀ (j : Nat) (l : List Act), j ≠ i → lanes[j]? = some l → ∀ act ∈ l, ∀ t, v (act.2 t) = v t)
    (own : ∀ l : List Act, lanes[i]? = some l → ∀ act ∈ l, ∀ t t', v t = v t' → v (act.2 t) = v (act.2 t')) :
    ∀ s t : State, v s = v t →
      v (out.foldl (fun u act => act u) s) = v ((lanes.getD i []).foldl (fun u act => act.2 u) t) := by
  induction h with
  | @done busy lanes h =>
    intro s t e
    have nil : lanes.getD i [] = [] := by
      cases hi : lanes[i]? with
      | none => simp [List.getD, hi]
      | some l => simpa [List.getD, hi] using List.flatten_eq_nil_iff.1 h l (List.mem_of_getElem? hi)
    rwa [nil]
  | @take busy lanes k mark a rest out hk able _ ih =>
    intro s t e
    have lt := (List.getElem?_eq_some_iff.1 hk).1
    rw [List.foldl_cons]
    by_cases hki : k = i
    · subst hki
      have get : lanes.getD k [] = (mark, a) :: rest := by simp [List.getD, hk]
      rw [get, List.foldl_cons]
      have self : (lanes.set k rest)[k]? = some rest := List.getElem?_set_self lt
      have step := ih
        (fun j l hj hl => others j l hj (by rwa [List.getElem?_set_ne (Ne.symm hj)] at hl))
        (fun l hl act ha => own _ hk act (by
          rw [self, Option.some.injEq] at hl
          exact List.mem_cons_of_mem _ (hl ▸ ha)))
        (a s) (a t) (own _ hk (mark, a) (List.mem_cons_self ..) s t e)
      rwa [show (lanes.set k rest).getD k [] = rest by simp [List.getD, self]] at step
    · have keep : (lanes.set k rest)[i]? = lanes[i]? := List.getElem?_set_ne hki
      have step := ih
        (fun j l hj hl => by
          by_cases hjk : j = k
          · subst hjk
            rw [List.getElem?_set_self lt, Option.some.injEq] at hl
            exact fun act ha => others j _ hj hk act (List.mem_cons_of_mem _ (hl ▸ ha))
          · exact others j l hj (by rwa [List.getElem?_set_ne (Ne.symm hjk)] at hl))
        (fun l hl => own l (by rwa [keep] at hl))
        (a s) t ((others k _ hki hk (mark, a) (List.mem_cons_self ..) s).trans e)
      rwa [show (lanes.set k rest).getD i [] = lanes.getD i [] by simp [List.getD, keep]] at step

/-! ## Best matches (R64, R117) -/

/-- A best match is acceptable, stands at its place in the list, and no acceptable item is nearer. -/
theorem bestMatch_spec {α : Type} {ok : α → Bool} {dist : α → Nat} :
    ∀ {l : List α} {i : Nat} {a : α}, bestMatch ok dist l = some (i, a) →
      l[i]? = some a ∧ ok a = true ∧ ∀ b ∈ l, ok b = true → dist a ≤ dist b
  | [], i, a, h => by simp [bestMatch] at h
  | x :: rest, i, a, h => by
    unfold bestMatch at h
    split at h
    · next hn =>
      split at h
      · next hx =>
        simp only [Option.some.injEq, Prod.mk.injEq] at h
        obtain ⟨rfl, rfl⟩ := h
        refine ⟨rfl, hx, ?_⟩
        intro b hb hok
        rcases List.mem_cons.1 hb with rfl | hb
        · exact Nat.le_refl _
        · exact absurd hok (by simpa using bestMatch_none hn b hb)
      · simp at h
    · next j b hs =>
      obtain ⟨h1, h2, h3⟩ := bestMatch_spec hs
      split at h
      · next hx =>
        simp only [Option.some.injEq, Prod.mk.injEq] at h
        obtain ⟨rfl, rfl⟩ := h
        simp only [Bool.and_eq_true, decide_eq_true_eq] at hx
        refine ⟨rfl, hx.1, ?_⟩
        intro c hc hok
        rcases List.mem_cons.1 hc with rfl | hc
        · exact Nat.le_refl _
        · exact Nat.le_trans hx.2 (h3 c hc hok)
      · next hx =>
        simp only [Option.some.injEq, Prod.mk.injEq] at h
        obtain ⟨rfl, rfl⟩ := h
        refine ⟨by simpa using h1, h2, ?_⟩
        intro c hc hok
        rcases List.mem_cons.1 hc with rfl | hc
        · simp only [Bool.and_eq_true, decide_eq_true_eq, not_and] at hx
          have := hx hok
          omega
        · exact h3 c hc hok
where
  /-- No best match means no acceptable item. -/
  bestMatch_none {α : Type} {ok : α → Bool} {dist : α → Nat} :
      ∀ {l : List α}, bestMatch ok dist l = none → ∀ b ∈ l, ok b = false
    | [], _, b, hb => by simp at hb
    | x :: rest, h, b, hb => by
      unfold bestMatch at h
      split at h
      · next hn =>
        split at h
        · simp at h
        · next hx =>
          rcases List.mem_cons.1 hb with rfl | hb
          · simpa using hx
          · exact bestMatch_none hn b hb
      · split at h <;> simp at h

end Sys2Proof.Machine
end

