-- ==== Sys2Proof/Laws/PerInstr.lean ====
section
/-! SUPPORT. Statements made command by command: the family `FrameLength` says that the frame a well-formed command stands
for has a payload length its kind allows (Table 8-5), so that it passes check 3 of R139. -/

namespace Sys2Proof.Laws.FrameLength

open Sys2Proof.Machine

/-- The frame of a well-formed command has a payload length its kind allows. -/
def Statement (i : Instr) : Prop :=
  i.wellFormed = true → ∀ f, commandFrame i = some f → lengthOk f.kind f.payload.length = true

/-- A command that is no frame. -/
theorem of_none {i : Instr} (h : commandFrame i = none) : Statement i := by
  intro _ f hf
  simp [h] at hf

/-- A command whose frame has an allowed length. -/
theorem of_some {i : Instr} {f : Frame} (h : commandFrame i = some f)
    (ok : lengthOk f.kind f.payload.length = true) : Statement i := by
  intro _ g hg
  rw [h] at hg
  cases hg
  exact ok

/-- A kind outside the table allows any length a frame can carry. -/
theorem lengthOk_unknown {kind : BitVec 6} {n : Nat} (h : knownKind kind = false) (hn : n ≤ 15) :
    lengthOk kind n = true := by
  unfold lengthOk
  unfold knownKind at h
  cases hk : kindRow kind with
  | none => simp [hn]
  | some r => simp [hk] at h

theorem reset (cause : ResetCause) (straps : Straps) : Statement (.reset cause straps) := of_none rfl
theorem startingEnd (memory : List Byte) : Statement (.startingEnd memory) := of_none rfl
theorem encoderLineChange (line : EncoderLine) (level : Level) : Statement (.encoderLineChange line level) := of_none rfl
theorem encoderLevelAccepted (lines : AcceptedLines) (peaks : Eight Nat) :
    Statement (.encoderLevelAccepted lines peaks) := of_none rfl
theorem stillness : Statement (.stillness) := of_none rfl
theorem liftLineChange (level : Level) : Statement (.liftLineChange level) := of_none rfl
theorem liftRecognised (peaks : Eight Nat) : Statement (.liftRecognised peaks) := of_none rfl
theorem listeningEnd (traces : Eight (List Byte)) : Statement (.listeningEnd traces) := of_none rfl
theorem recoveryEnd (peaks : Eight Nat) : Statement (.recoveryEnd peaks) := of_none rfl
theorem settleComplete (peaks : Eight Nat) : Statement (.settleComplete peaks) := of_none rfl
theorem run (src : BitVec 4) (dest : Byte) (runNumber : BitVec 16) (start : BitVec 32) :
    Statement (.run src dest runNumber start) := of_some rfl rfl
theorem stop (src : BitVec 4) (dest : Byte) : Statement (.stop src dest) := of_some rfl rfl
theorem runEnd : Statement (.runEnd) := of_none rfl
theorem halt (src : BitVec 4) (dest : Byte) : Statement (.halt src dest) := of_some rfl rfl
theorem zone (src : BitVec 4) (dest : Byte) (index : Byte) (base limit : BitVec 32) :
    Statement (.zone src dest index base limit) := of_some rfl rfl
theorem flush (src : BitVec 4) (dest : Byte) (scope : Byte) (peer : BitVec 4) :
    Statement (.flush src dest scope peer) := of_some rfl rfl
theorem clear (src : BitVec 4) (dest : Byte) : Statement (.clear src dest) := of_some rfl rfl
theorem query (src : BitVec 4) (dest : Byte) (page : Byte) : Statement (.query src dest page) := of_some rfl rfl
theorem announce (src : BitVec 4) (fields : AnnounceFields) : Statement (.announce src fields) := of_some rfl rfl
theorem indication (src : BitVec 4) (fields : IndicationFields) : Statement (.indication src fields) := of_some rfl rfl
theorem gap (src : BitVec 4) (fields : GapFields) : Statement (.gap src fields) := of_some rfl rfl
theorem span (src : BitVec 4) (fields : SpanFields) : Statement (.span src fields) := of_some rfl rfl
theorem fault (src : BitVec 4) (fields : FaultFields) : Statement (.fault src fields) := of_some rfl rfl
theorem status (src : BitVec 4) (fields : StatusFields) : Statement (.status src fields) := of_some rfl rfl
theorem unknownKind (src : BitVec 4) (kind : BitVec 6) (payload : List Byte) :
    Statement (.unknownKind src kind payload) := by
  intro h f hf
  simp only [Instr.wellFormed, Bool.and_eq_true, Bool.not_eq_true', decide_eq_true_eq] at h
  simp only [commandFrame, Option.some.injEq] at hf
  subst hf
  exact lengthOk_unknown h.1 h.2
theorem lineIdle (dominant : Bool) : Statement (.lineIdle dominant) := of_none rfl
theorem frameEnd : Statement (.frameEnd) := of_none rfl
theorem arbitrationLost : Statement (.arbitrationLost) := of_none rfl
theorem transmitError (heard : Heard) : Statement (.transmitError heard) := of_none rfl
theorem haltSymbol (pulse : Pulse) : Statement (.haltSymbol pulse) := of_none rfl
theorem stuckLine : Statement .stuckLine := of_none rfl
theorem noisePulse (pulse : Pulse) : Statement (.noisePulse pulse) := of_none rfl
theorem formError (pulse : Pulse) : Statement (.formError pulse) := of_none rfl
theorem leadMark (pulse : Pulse) : Statement (.leadMark pulse) := of_none rfl
theorem bitReceived (pulse : Pulse) : Statement (.bitReceived pulse) := of_none rfl
theorem waitForIdleRestart (pulse : Pulse) : Statement (.waitForIdleRestart pulse) := of_none rfl
theorem heldInReset (cause : ResetCause) : Statement (.heldInReset cause) := of_none rfl

end Sys2Proof.Laws.FrameLength
end

