-- ==== Sys2Proof/Tests/Slice0.lean ====
section
/-! SUPPORT. Tests of the model: an ill-formed term for each check of WellFormed, the manual's worked figures (each test
names the table or rule its expected result comes from), small single steps, and for every statement with hypotheses a
state and operands that meet them. -/

set_option Elab.async false

namespace Sys2Proof.Machine.Tests

open Sys2Proof

/-! ## Small states -/

/-- Element 2 of the leading left station (sections 3.4, 3.6, 3.11 and 5.9). -/
def element2 : ElementSection :=
  { ElementSection.blank with
    enable := 1, key := 5, sine := 15396, cosine := 5604, pathScale := 8294, nominalDelay := 1180, pitch := 3000,
    phase := 1000, window := 9000, iStart := 900, iEnd := 1500, couplingLevel := 90, aStart := 400, aEnd := 9000,
    pointCount := 3, deadZone := 40, points := [⟨400, 120⟩, ⟨4000, 60⟩, ⟨7000, 40⟩, ⟨0, 0⟩], chainWindow := 1500,
    chainGap := 10, minLength := 3, reportLevel := 120 }

/-- Element 0 of the same station: straight down, with gate B (sections 3.9, 5.10 and 6.8). -/
def element0 : ElementSection :=
  { element2 with key := 3, sine := 0, bEnable := 1, backWallLevel := 60, bStart := 6200, bEnd := 7400 }

/-- The station section of the leading left station (sections 5.9, 6.8 and 7.9), with the edge pitch and the hysteresis
of Table 1-4 and the matrix of Table 2-3. -/
def station2 : StationSection :=
  { StationSection.blank with
    mountOffset := 2350, edgePitch := 500, encoderFilter := 2, liftActive := .high, liftFilter := 20, stillTime := 10,
    perShotLimit := 3, recovery := 20, hysteresis := 5, spanLength := 10, silence := 200, pairWindow := 20,
    depthWindow := 15, horizon := 10, b1 := 45, b2 := 110, b3 := 175, couplingRun := 30, backWallMin := 20
    compatibility := ⟨0xFB, 0xDF, 0xBD, 0xFF, 0xFF, 0x7F, 0x5F, 0xFF⟩ }

def sample : Configuration :=
  { station := station2, element := (Eight.all { element2 with key := 0 }).set 2 element2 |>.set 0 element0 }

/-- Station 2, left, configured, in the station state `st`, its odometer active and its receiver seeking. -/
def station (st : StationState) : State :=
  { State.reset with
    odo := { Odometer.afterReset with active := true, pos := ⟨1000, 0⟩, extreme := ⟨1000, 0⟩ }
    link := { Link.afterReset with rx := .seeking }
    control := { State.reset.control with
      state := st, address := 2, config := some sample, configuredMask := Eight.all true,
      enableMask := Eight.all true, runNumber := 4 } }

/-- Station 2 in a run with its coverage account and its run mark. -/
def running : State :=
  { station .running with
    cover := { Coverage.afterReset with accounting := .active, runMask := Eight.all true }
    pair := { Pairing.afterReset with runMark := true } }

/-- `s` with the frame of command `c` waiting alone in the receive queue. -/
def holding (c : Instr) (s : State) : State :=
  { s with link := { s.link with rxQueue := (commandFrame c).toList } }

/-- The state after a command; the state itself if the command stopped. -/
def after (c : Instr) (s : State) : State :=
  match exec c s with
  | .next t => t
  | .fault _ => s
  | .refused _ => s

/-- The bytes of element 2's section in an image (Table 10-13). -/
def element2Bytes : List Byte :=
  [0x01, 0x05, 0x3C, 0x24, 0x15, 0xE4, 0x20, 0x66, 0x04, 0x9C, 0x0B, 0xB8, 0x03, 0xE8, 0x23, 0x28, 0x03, 0x84, 0x05,
   0xDC, 0x5A, 0x00, 0x01, 0x90, 0x23, 0x28, 0x03, 0x28, 0x01, 0x90, 0x78, 0x0F, 0xA0, 0x3C, 0x1B, 0x58, 0x28, 0x00,
   0x00, 0x00, 0x00, 0x00, 0x00, 0x00, 0x00, 0x00, 0x05, 0xDC, 0x0A, 0x03, 0x78, 0x00, 0x00, 0x00, 0x00, 0x00]

/-- The first 54 bytes of an image: mark, length, image id 0x1234 and the station section of station 2 with the given
encoder filter. The last two reserved bytes bring the CRC-16 to 0, so that zeros keep it there. -/
def imageHead54 (filter : Byte) (fill : BitVec 16) : List Byte :=
  [0xD8, 0x16, 0x01, 0xF8, 0x12, 0x34, 0x09, 0x2E, 0x01, 0xF4, 0x00, filter, 0x01, 0x14, 0x0A, 0x03, 0x14, 0x05, 0x00,
   0x0A, 0x00, 0xC8, 0x00, 0x14, 0x00, 0x0F, 0x0A, 0x2D, 0x6E, 0xAF, 0xFB, 0xDF, 0xBD, 0xFF, 0xFF, 0x7F, 0x5F, 0xFF,
   0x00, 0x1E, 0x00, 0x14, 0, 0, 0, 0, 0, 0, 0, 0, 0, 0] ++ bytes16 fill

/-- A 504-byte image whose elements are all disabled. -/
def imageWith (filter : Byte) (fill : BitVec 16) : List Byte := imageHead54 filter fill ++ List.replicate 450 0

/-! ## WellFormed: each check refuses an ill-formed term -/

theorem test_wf_memory : (Instr.startingEnd (List.replicate 513 0)).wellFormed = false := by decide +kernel
theorem test_wf_trace :
    (Instr.listeningEnd ((Eight.all []).set 5 (List.replicate 16384 0))).wellFormed = false := by decide +kernel
theorem test_wf_known_kind : (Instr.unknownKind 3 0x42 []).wellFormed = false := by decide
theorem test_wf_long_payload : (Instr.unknownKind 3 0x3F (List.replicate 16 0)).wellFormed = false := by decide
theorem test_wf_heard : (Instr.transmitError (.pulse 4999)).wellFormed = false := by decide
theorem test_wf_halt_short : (Instr.haltSymbol (.released 99999)).wellFormed = false := by decide
theorem test_wf_halt_long : (Instr.haltSymbol (.released 2000001)).wellFormed = false := by decide
theorem test_wf_noise : (Instr.noisePulse (.released 500)).wellFormed = false := by decide
theorem test_wf_form : (Instr.formError (.released 100000)).wellFormed = false := by decide
theorem test_wf_lead : (Instr.leadMark (.released 12001)).wellFormed = false := by decide
theorem test_wf_bit : (Instr.bitReceived (.released 5000)).wellFormed = false := by decide
theorem test_wf_wait : (Instr.waitForIdleRestart (.released 499)).wellFormed = false := by decide
theorem test_wf_edges :
    (Instr.leadMark .begins).wellFormed = true ∧ (Instr.haltSymbol (.released 100000)).wellFormed = true ∧ (Instr.haltSymbol (.released 2000000)).wellFormed = true ∧
      (Instr.leadMark (.released 8000)).wellFormed = true ∧ (Instr.bitReceived (.released 500)).wellFormed = true := by decide

/-! ## Chapter 1: Tables 1-4 and 1-5 -/

/-- Table 1-4, the row of the 10th backward edge: exactly H back from the extreme point. -/
theorem test_reversal :
    ({ (station .running).odo with pos := ⟨997, 0⟩, extreme := ⟨1001, 500⟩, travel := 6000 } : Odometer).edge 500 5 (-500)
      = { (station .running).odo with
          pos := ⟨996, 500⟩, travel := 6500, direction := .backward, extreme := ⟨996, 500⟩ } := by decide +kernel

/-- Table 1-4, the ninth backward edge: 4.5 mm back declares nothing. -/
theorem test_no_reversal :
    (({ (station .running).odo with pos := ⟨997, 500⟩, extreme := ⟨1001, 500⟩ } : Odometer).edge 500 5 (-500)).direction
      = .forward := by decide +kernel

/-- Table 1-5, all six rows. -/
theorem test_car_positions :
    carPosition 2350 ⟨1250317, 640⟩ 0 = 1252668 ∧ carPosition 2350 ⟨1250317, 499⟩ 0 = 1252667 ∧
    carPosition 0 ⟨-3, 500⟩ 0 = -2 ∧ carPosition 0 ⟨-3, 499⟩ 0 = -3 ∧
    carPosition 20000 ⟨2147470000, 900⟩ 0 = 2147483647 ∧ carPosition (-20000) ⟨-2147480000, 0⟩ 0 = -2147483648 := by
  decide +kernel

/-- R5: a backward edge of 2000 µm from 0 mm 500 µm borrows two millimetres. -/
theorem test_borrow : (⟨0, 500⟩ : FinePos).move (-2000) = ⟨-2, 500⟩ := by decide +kernel

/-- R5: fine position saturates at its upper limit. -/
theorem test_saturates : (⟨2147483647, 900⟩ : FinePos).move 500 = ⟨2147483647, 999⟩ := by decide +kernel

/-! ## Chapter 2: Tables 2-3, 2-5 and 2-6 -/

/-- Table 2-3: the due elements and their next-due travels at travel 14200. -/
def forming : State :=
  { running with
    odo := { running.odo with travel := 14200 }
    sched := { running.sched with
      element := ⟨⟨14000, 0, 0, false⟩, ⟨12000, 0, 0, false⟩, ⟨12500, 0, 0, false⟩, ⟨15000, 0, 0, false⟩,
        ⟨15000, 0, 0, false⟩, ⟨12000, 0, 0, false⟩, ⟨13000, 0, 0, false⟩, ⟨15000, 0, 0, false⟩⟩ } }

theorem test_due_order : forming.dueOrder = [1, 5, 2, 6, 0] := by decide +kernel
theorem test_forming : takeShot station2 [1, 5, 2, 6, 0] = [1, 5, 6] := by decide +kernel
/-- The second shot of the same example. -/
theorem test_forming_second : takeShot station2 [2, 0] = [2, 0] := by decide +kernel
/-- Table 2-5, last row. -/
theorem test_skip_seven : fireElement 24000 3000 ⟨3000, 0, 0, true⟩ = ⟨27000, 7, 0, true⟩ := by decide +kernel
/-- Table 2-6: a lag of exactly one pitch is one skip. -/
theorem test_skip_one : fireElement 54000 6000 ⟨48000, 0, 8, false⟩ = ⟨60000, 1, 0, true⟩ := by decide +kernel
/-- Table 2-6: the eighth firing on the grid. -/
theorem test_on_grid : fireElement 47250 6000 ⟨42000, 0, 7, false⟩ = ⟨48000, 0, 8, false⟩ := by decide +kernel
/-- R24: the eighth firing on the grid clears the mark. -/
theorem test_mark_cleared : fireElement 47250 6000 ⟨42000, 3, 7, true⟩ = ⟨48000, 3, 8, false⟩ := by decide +kernel
/-- R35: both ends of the acceptance window are good. -/
theorem test_good_fire :
    goodFire 499999 = false ∧ goodFire 500000 = true ∧ goodFire 5000000 = true ∧ goodFire 5000001 = false := by decide

/-! ## Chapter 3: Tables 3-3 and 3-5, R43, R48 to R51 -/

theorem test_threshold :
    thresholdLevel 0 (usedPoints element2) = 120 ∧ thresholdLevel 1500 (usedPoints element2) = 102 ∧
    thresholdLevel 2987 (usedPoints element2) = 77 ∧ thresholdLevel 4000 (usedPoints element2) = 60 ∧
    thresholdLevel 5200 (usedPoints element2) = 52 ∧ thresholdLevel 6100 (usedPoints element2) = 46 ∧
    thresholdLevel 7780 (usedPoints element2) = 40 := by decide +kernel

theorem test_paths :
    soundPath 1511 8294 = 48954 ∧ soundPath 3000 8294 = 97195 ∧ soundPath 3030 8294 = 98167 ∧
    soundPath 5206 8294 = 168666 := by decide +kernel

/-- R48 to R50 by hand, level 100, dead zone 3: an echo at 1 to 3 with its first peak at 2, its end at 4, and a run that
begins inside the dead zone and begins an echo where the zone ends, at 7. -/
theorem test_dead_zone :
    echoPeaks [⟨0, 100⟩, ⟨20, 100⟩] 3 10 (stampFrom 0 [0, 120, 130, 130, 50, 140, 120, 110, 125, 50]) =
      [⟨2, 130⟩, ⟨8, 125⟩] := by decide +kernel

/-- R43 by hand: the first run gives the reference, its maximum's first sample the time, a later larger run nothing. -/
theorem test_gate_i :
    gateI { element2 with iStart := 1, iEnd := 9 } [255, 10, 95, 236, 200, 236, 30, 251, 40, 0, 255] = ⟨true, 3, 236⟩ := by
  decide +kernel

/-- R44: no sample reaches C: the nominal delay, and the greatest sample as amplitude. -/
theorem test_gate_i_none :
    gateI { element2 with iStart := 1, iEnd := 4 } [255, 10, 71, 50, 89, 200] = ⟨false, 1180, 89⟩ := by decide +kernel

/-- R51 and R54 by hand: five runs give three echoes and two excess; gate B cut to nothing finds the back-wall absent. -/
theorem test_trace :
    let c := { element0 with iStart := 0, iEnd := 0, nominalDelay := 0, aStart := 1, aEnd := 60, deadZone := 8,
                             bStart := 60, bEnd := 70, window := 60, pathScale := 256 }
    let run : List Byte := [0, 200, 0, 0, 0, 0, 0, 0, 0, 0, 0]
    let r := workTrace c 0 ⟨noElements, 0, 7, ⟨1, 2⟩, noElements⟩ (run ++ run ++ run ++ run ++ run)
    r.1.echoes = [⟨1, 1, 200, false⟩, ⟨12, 12, 200, false⟩, ⟨23, 23, 200, false⟩] ∧ r.2 = 2 ∧
      r.1.backWall = some false ∧ r.1.found = false ∧ r.1.travel = 7 := by decide +kernel

/-! ## Chapter 4: Tables 4-4 and 4-6 -/

/-- The chain of Table 4-4. -/
def chain42 : Chain :=
  { element := 2, number := 42, lastTravel := 1847250, lastPos := ⟨1250317, 640⟩, lastPath := 97195, count := 3,
    peak := 214, peakPath := 97195, peakPos := ⟨1250317, 640⟩, saturated := false }

theorem test_prediction :
    predictedPath 15396 ⟨1250320, 640⟩ chain42 = 94376 ∧ predictedPath 15396 ⟨1250319, 688⟩ chain42 = 95270 ∧
    predictedPath 15396 ⟨1250315, 592⟩ chain42 = 99120 ∧ predictedPath 15396 ⟨1250316, 140⟩ chain42 = 98605 ∧
    predictedPath (-15396) ⟨1250320, 640⟩ chain42 = 100014 ∧ predictedPath 0 ⟨1250320, 640⟩ chain42 = 97195 := by
  decide +kernel

/-- Table 4-6, chains 51 and 54. -/
def twoChains : State :=
  { running with tracker := { running.tracker with
      chains := [{ chain42 with number := 51, lastPath := 122819 }, { chain42 with number := 54, lastPath := 124519 }]
      nextNumber := 60 } }

/-- A shot one pitch on with two echoes of the given paths. -/
def twoEchoes (p q : Nat) : ShotResult :=
  ⟨2, 1850250, ⟨1250320, 640⟩, true, [⟨3700, p, 150, false⟩, ⟨3760, q, 150, false⟩], none⟩

def lastPaths (s : State) : List (Nat × Nat) := s.tracker.chains.map fun c => (c.number, c.lastPath)

theorem test_assign_plain :
    lastPaths (twoChains.assignResult (twoEchoes 120300 122100)) = [(51, 120300), (54, 122100)] := by decide +kernel
theorem test_assign_order :
    lastPaths (twoChains.assignResult (twoEchoes 121000 122800)) = [(51, 122819), (54, 121000), (60, 122800)] := by
  decide +kernel
theorem test_assign_tie :
    lastPaths (twoChains.assignResult (twoEchoes 120850 122650)) = [(51, 120850), (54, 122650)] := by decide +kernel

/-- R69: a gap of exactly G stays, the next micrometre closes (Table 4-8, chain 41; here G is 10 mm). -/
theorem test_gap_strict :
    running.gapExceeded (1847250 + 10000) chain42 = false ∧ running.gapExceeded (1847250 + 10001) chain42 = true := by
  decide +kernel

/-! ## Chapter 5: section 5.9 and Table 5-5 -/

theorem test_depth :
    depthTenths element2 97195 = 332 ∧ depthZone station2 332 = .head ∧ depthTenths element2 168666 = 577 ∧
    depthZone station2 577 = .web ∧ depthZone station2 450 = .web ∧ depthZone station2 1750 = .beyond := by
  decide +kernel

theorem test_positions :
    carPosition 2350 ⟨1250317, 640⟩ (alongMicros element2 97195) = 1252759 ∧
    carPosition 2350 ⟨1250317, 640⟩ (alongMicros { element2 with sine := -15396 } 97195) = 1252576 ∧
    carPosition 2350 ⟨1250317, 640⟩ (alongMicros element2 168666) = 1252826 := by decide +kernel

theorem test_zones :
    zoneEntry 1252700 1252750 = ⟨true, 1252688, 1252751⟩ ∧ zoneEntry 1252700 1252760 = ⟨true, 1252688, 1252767⟩ ∧
    zoneEntry (-100) (-1) = ⟨true, -112, -1⟩ ∧ zoneEntry (-100) (-17) = ⟨true, -112, -17⟩ ∧
    zoneEntry 40 35 = ⟨false, 32, 47⟩ ∧ zoneEntry 0 0 = ⟨true, 0, 15⟩ := by decide +kernel

/-- Tables 5-6 and 10-5: chain 42 becomes indication 17. -/
def indication17 : Indication := ⟨17, 2, .left, 5, .forward, 1252759, .echo 332 .head 214 false 3⟩

/-- Station 2 before indication 17, with station 6 announcing a partner of element 2. -/
def withPartner : State :=
  { running with
    judge := { running.judge with nextSeq := 17 }
    pair := { running.pair with peers :=
      [⟨6, .left, .running, 6, (Eight.all ⟨false, 0, .normal, false⟩).set 5 ⟨true, 5, .backward, false⟩, 0, true⟩] } }

theorem test_indication_numbered :
    (withPartner.judgeChain chain42).judge.nextSeq = 18 ∧
      ((withPartner.judgeChain chain42).pair.own.map fun o => (o.indication.sequence, o.sole)) = [(17, false)] := by
  decide +kernel

/-- The payload of Table 10-5 behind the header of section 8.3 (Arbitration worked). -/
theorem test_indication_17 :
    (withPartner.indicationNotice indication17 .first).checked =
      [0x98, 0x2F, 0x00, 0x11, 0x40, 0x54, 0x00, 0x13, 0x1D, 0x97, 0x01, 0x4C, 0xD6, 0x03, 0x00, 0x00, 0x00] := by
  decide +kernel

/-! ## Chapter 6: Table 6-4 and sections 6.8 and 11.3 -/

/-- Table 6-4: the closing of a lift leaves out element 3, and the others close in one notice. -/
theorem test_combining :
    (groupChanges ([0, 1, 2, 4, 5, 6, 7].map fun e => ⟨true, 1, e, 1253510, 1253866⟩)) =
      [⟨true, 1, (Eight.all true).set 3 false, 1253510, 1253866⟩] := by decide +kernel

/-- Remark below Table 6-4: a STOP in that lift closes two groups, element 0's first. -/
theorem test_combining_starts :
    ((groupChanges ([0, 1, 2, 3, 4, 5, 6, 7].map fun e =>
        ⟨true, 5, e, if e = 3 then 1252404 else 1253510, 1253866⟩)).map (·.startX)) = [1253510, 1252404] := by
  decide +kernel

theorem test_tested :
    testedPercent 100000000 74000 = 99 ∧ testedPercent 10000000 380000 = 96 ∧ testedPercent 10000000 372000 = 96 := by
  decide +kernel

/-! ## Chapter 7: Table 7-4 -/

/-- Station 6 of Table 7-4: element 5 looks backward with key 5, without gate B. -/
def station6 : State :=
  { running with control := { running.control with
      address := 6
      enableMask := noElements.set 5 true
      config := some { sample with element := sample.element.set 5 { element2 with sine := -15396 } } } }

def noticeOf (rail : Rail) (key : Nat) (sense : Sense) (depth : Option Nat) : PeerNotice :=
  ⟨2, 17, 2, rail, key, sense, false, 1252759, depth, 0⟩

theorem test_complementary :
    station6.wantsNotice (noticeOf .left 5 .forward (some 332)) = true ∧
    station6.wantsNotice (noticeOf .left 5 .backward (some 332)) = false ∧
    station6.wantsNotice (noticeOf .left 3 .forward (some 332)) = false ∧
    station6.wantsNotice (noticeOf .right 5 .forward (some 332)) = false ∧
    station6.wantsNotice (noticeOf .left 5 .forward none) = false ∧
    station6.wantsNotice (noticeOf .left 0 .forward (some 332)) = false := by decide +kernel

/-! ## Chapter 8: Tables 8-2, 8-4, 8-6 and 8-8 -/

theorem test_crc8 : crc8 [0x42] = 0x3A ∧ crc8 [0x42, 0xF1] = 0x7F ∧ crc8 [0x42, 0xF1, 0xFF] = 0x89 := by decide +kernel

/-- Table 8-4: the console's STOP to all stations, bit by bit as its four bytes are driven. -/
def stopBits : List Bool := ([0x42, 0xF1, 0xFF, 0x89] : List Byte).flatMap byteBits

theorem test_stop_bits : judgeBits stopBits = .good ⟨1, 0x02, 15, [0xFF]⟩ := by decide +kernel
theorem test_stop_command : frameCommand ⟨1, 0x02, 15, [0xFF]⟩ = .stop 15 0xFF := by decide
theorem test_stop_frame : (commandFrame (.stop 15 0xFF)).map Frame.bytes = some [0x42, 0xF1, 0xFF, 0x89] := by
  decide +kernel

theorem test_bad_crc : judgeBits (([0x42, 0xF1, 0xFF, 0x88] : List Byte).flatMap byteBits) = .badCrc := by decide +kernel
theorem test_cut_short : judgeBits (stopBits.take 31) = .badShape := by decide +kernel
/-- R139 check 3: STOP with a payload of two bytes and a good CRC. -/
theorem test_bad_length :
    judgeBits (([0x42, 0xF2, 0xFF, 0x00] ++ [crc8 [0x42, 0xF2, 0xFF, 0x00]]).flatMap byteBits) = .badLength := by
  decide +kernel

theorem test_pulse_classes :
    classifyPulse .idle 499 = .noise ∧ classifyPulse .idle 500 = .formError ∧ classifyPulse .idle 7999 = .formError ∧
    classifyPulse .idle 8000 = .leadMark ∧ classifyPulse .idle 12000 = .leadMark ∧
    classifyPulse .idle 12001 = .formError ∧ classifyPulse .idle 100000 = .haltSymbol ∧
    classifyPulse .idle 2000000 = .haltSymbol ∧ classifyPulse .idle 2000001 = .stuck := by decide
theorem test_pulse_classes_frame :
    classifyPulse (.frame [] none) 1999 = .bit true ∧ classifyPulse (.frame [] none) 2000 = .bit false ∧
    classifyPulse (.frame [] none) 4999 = .bit false ∧ classifyPulse (.frame [] none) 5000 = .formError ∧
    classifyPulse (.frame [] none) 10000 = .formError ∧ classifyPulse .seeking 10000 = .restart ∧
    classifyPulse .seeking 99999 = .restart := by decide

/-- Table 8-8: station 3, having heard 1001 1000 001, drives a 1 at bit 12 and hears station 2's 0. -/
def contending : State :=
  { running with link := { running.link with
      tx := .sending, txQueue := [⟨2, 0x18, 3, List.replicate 15 0⟩]
      rx := .frame [true, false, false, true, true, false, false, false, false, false, true] none } }

theorem test_arbitration_lost :
    (after .arbitrationLost contending).link.tx = .backedOff ∧ (after .arbitrationLost contending).link.counts.lost = 1 ∧
      (after .arbitrationLost contending).link.txQueue.length = 1 := by decide +kernel

/-! ## Chapters 9 and 10 -/

/-- The CRC-16 of R161 over the nine digits, whose published check value is 0x29B1 (a source outside the manual). -/
theorem test_crc16 : crc16 [0x31, 0x32, 0x33, 0x34, 0x35, 0x36, 0x37, 0x38, 0x39] = 0x29B1 := by decide +kernel

/-- R160, R161: a memory that does not answer is read for 4 bytes, 56 clock periods, and is structurally bad. -/
theorem test_no_memory :
    (after (.startingEnd []) State.reset).control.state = .unconfigured ∧
      (after (.startingEnd []) State.reset).loader.clocks = 56 := by decide +kernel

theorem crc16_zeros (n : Nat) : (List.replicate n (0 : Byte)).foldl crc16Byte 0 = 0 := by
  induction n with
  | zero => rfl
  | succ n ih => rw [List.replicate_succ, List.foldl_cons]; exact ih

theorem imageWith_good (filter : Byte) (fill : BitVec 16) (h : (imageHead54 filter fill).foldl crc16Byte 0xFFFF#16 = 0)
    (mark : (imageWith filter fill).take 4 = imageHead) (tail : word16At (imageWith filter fill) 502 = 0) :
    structurallyGood (imageWith filter fill) = true := by
  have len : (imageHead54 filter fill).length = 54 := rfl
  have crc : crc16 ((imageWith filter fill).take 502) = 0 := by
    rw [imageWith, List.take_append, len, List.take_of_length_le (by omega), List.take_replicate, crc16,
      List.foldl_append, h]
    exact crc16_zeros _
  rw [structurallyGood, crc, mark, tail]; rfl

theorem test_image_crc : (imageHead54 2 0xA8F6).foldl crc16Byte 0xFFFF#16 = 0 ∧
    (imageHead54 1 0x71F7).foldl crc16Byte 0xFFFF#16 = 0 := by decide +kernel

/-- R163: an image in its ranges is good, whatever its elements. -/
theorem test_good_image :
    checkImage (loadedBytes (imageWith 2 0xA8F6)) = .good 0x1234 (configurationOf (imageWith 2 0xA8F6)) := by
  have load : loadedBytes (imageWith 2 0xA8F6) = imageWith 2 0xA8F6 := by decide +kernel
  have ok : stationFaultOffset (imageWith 2 0xA8F6) = none := by decide +kernel
  rw [load, checkImage, if_pos (imageWith_good 2 0xA8F6 test_image_crc.1 (by decide +kernel) (by decide +kernel)), ok]; rfl

/-- R162: an encoder filter of 1 is below its range, and its offset is 11; the image id read is reported. -/
theorem test_station_bad : checkImage (loadedBytes (imageWith 1 0x71F7)) = .stationBad 0x1234 11 := by
  have load : loadedBytes (imageWith 1 0x71F7) = imageWith 1 0x71F7 := by decide +kernel
  have bad : stationFaultOffset (imageWith 1 0x71F7) = some 11 := by decide +kernel
  rw [load, checkImage, if_pos (imageWith_good 1 0x71F7 test_image_crc.2 (by decide +kernel) (by decide +kernel)), bad]; rfl

/-- Table 10-13: the bytes of element 2's section. -/
theorem test_element_section : elementSectionAt element2Bytes 0 = element2 := by decide +kernel

/-- Table 10-12: the station section of station 2. -/
theorem test_station_section : stationSection (imageWith 2 0xA8F6) = station2 := by decide +kernel

/-- R162: a b2 not above b1 is reported at b2. -/
theorem test_boundary_order :
    ((stationChecks (List.replicate 27 0 ++ [110, 45, 175])).filter fun c => c.1 = 28) = [(28, false)] := by decide +kernel

/-- Remark below Table 10-13: an element section with an enable of 2 is not usable, and gate B is not checked when off. -/
theorem test_sections :
    usable element2 = true ∧ usable { element2 with enable := 2 } = false ∧
    usable { element2 with bEnd := 0, bStart := 5 } = true ∧ usable { element0 with bEnd := 0, bStart := 5 } = false ∧
    usable { element2 with phase := 3001 } = false := by decide +kernel

/-- Table 9-6: after a CLEAR the next record takes index 8, the index the OVERFLOW notice named. -/
theorem test_clear_index :
    ({ station .running with control := { (station .running).control with faults :=
        ⟨List.replicate 8 ⟨.linkStuck, 0, none, 0, 0⟩, true, 0⟩ } } : State).workClear.control.faults = ⟨[], false, 8⟩ := by
  decide +kernel

/-- R173: a ninth fault sets the overflow mark and queues OVERFLOW with index 8 and no position. -/
theorem test_overflow :
    let s : State := { station .running with control := { (station .running).control with faults :=
        ⟨List.replicate 8 ⟨.linkStuck, 0, none, 0, 0⟩, false, 0⟩ } }
    (s.reportFault .encoder 0).control.faults.overflow = true ∧
      ((s.reportFault .encoder 0).link.txQueue.map fun f => (decodeFault f.payload).index) = [8] := by decide +kernel

/-- Table 8-10: INDICATION 31 finds the queue full; the record's own FAULT notice is dropped too. -/
theorem test_txq_full :
    let f : Frame := ⟨2, 0x18, 2, []⟩
    let s : State := { station .running with link := { (station .running).link with
      tx := .waiting, txQueue := List.replicate 24 f } }
    (s.append f).link.drops = ⟨1, 0, 0, 1⟩ ∧ ((s.append f).append f).link.drops = ⟨2, 0, 0, 1⟩ ∧
      ((s.append f).append f).control.faults.records.length = 1 := by decide +kernel

/-- Table 10-2. -/
theorem test_destinations :
    destinationIncludes 2 2 .left = true ∧ destinationIncludes 3 2 .left = false ∧
    destinationIncludes 0x80 2 .left = true ∧ destinationIncludes 0x81 2 .left = false ∧
    destinationIncludes 0xFF 2 .right = true ∧ destinationIncludes 0x12 2 .left = false := by decide

/-! ## Single steps -/

def quietRunning : State := { running with sched := { running.sched with state := .free }, pulser := ⟨.ready, Eight.all 0⟩ }

/-- R3: a raw line that leaves its filtered level starts its filter; R3: its return abandons it. -/
theorem test_line_change :
    (after (.encoderLineChange .a .high) running).odo.timingA = some 0 ∧
      (after (.encoderLineChange .a .low) (after (.encoderLineChange .a .high) running)).odo.timingA = none := by
  decide +kernel

/-- R1: an inactive odometer ignores the line. -/
theorem test_line_inactive : (after (.encoderLineChange .b .high) State.reset).odo = State.reset.odo := by decide +kernel

/-- R12: a lift change restarts the timing. -/
theorem test_lift_change : (after (.liftLineChange .high) running).odo.liftHeld = some 0 := by decide +kernel

/-- R32: stillness takes RUNNING to STILL and switches the high voltage off. -/
theorem test_stillness :
    (after .stillness quietRunning).control.state = .still ∧ (after .stillness quietRunning).pulser.hv = .off ∧
      (after .stillness quietRunning).sched.state = .off := by decide +kernel

/-- R31: a lift leaves the high voltage as it is. -/
theorem test_lift :
    let s : State := { quietRunning with odo := { quietRunning.odo with liftLevel := .high, liftHeld := some 0 } }
    (after (.liftRecognised (Eight.all 0)) s).control.state = .lifted ∧
      (after (.liftRecognised (Eight.all 0)) s).pulser.hv = .ready := by decide +kernel

/-- R27: a recovery end in a LIFTED entered from STILL switches the high voltage off. -/
theorem test_recovery_lifted :
    let s : State := { quietRunning with
      sched := { quietRunning.sched with state := .recovering 0 }
      control := { quietRunning.control with state := .lifted, liftFromStill := true } }
    (after (.recoveryEnd (Eight.all 0)) s).pulser.hv = .off := by decide +kernel

/-- R29: a settle that ends in LIFTED leaves the scheduler OFF and the high voltage READY. -/
theorem test_settle_lifted :
    let s : State := { quietRunning with
      sched := { quietRunning.sched with state := .off }, pulser := ⟨.settling 100000, Eight.all 0⟩
      control := { quietRunning.control with state := .lifted } }
    (after (.settleComplete (Eight.all 0)) s).pulser.hv = .ready ∧
      (after (.settleComplete (Eight.all 0)) s).sched.state = .off := by decide +kernel

/-- Table 9-8: a RUN in READY queues ANNOUNCE, then STATUS page 0, and the scheduler settles. -/
theorem test_run :
    ((after (.run 15 0xFF 4 1248000) (holding (.run 15 0xFF 4 1248000) (station .ready))).link.txQueue.map (·.kind)) =
        [Kind.announce, Kind.status] ∧
      (after (.run 15 0xFF 4 1248000) (holding (.run 15 0xFF 4 1248000) (station .ready))).sched.state = .settling := by
  decide +kernel

/-- Table 9-8: a second RUN leaves run 4 and is answered with STATUS alone. -/
theorem test_run_refused :
    let s := holding (.run 15 0xFF 5 0) running
    (after (.run 15 0xFF 5 0) s).control.runNumber = 4 ∧
      ((after (.run 15 0xFF 5 0) s).link.txQueue.map (·.kind)) = [Kind.status] := by decide +kernel

/-- R168: a STOP in RUNNING leaves the run end pending; the run end then queues nothing but the partial span. -/
theorem test_stop :
    (after (.stop 15 0xFF) (holding (.stop 15 0xFF) quietRunning)).control.runEndPending = true ∧
      (after .runEnd (after (.stop 15 0xFF) (holding (.stop 15 0xFF) quietRunning))).control.runEndPending = false ∧
      (after .runEnd (after (.stop 15 0xFF) (holding (.stop 15 0xFF) quietRunning))).pair.runMark = false := by
  decide +kernel

/-- R112, R169: a HALT opens one GAP of cause HALTED for every enabled element, before STATUS page 0. -/
theorem test_halt :
    ((after (.halt 15 0xFF) (holding (.halt 15 0xFF) quietRunning)).link.txQueue.map fun f => (f.kind, byteAt f.payload 0)) =
      [(Kind.gap, 0x02), (Kind.status, 0x00)] := by decide +kernel

theorem test_zone :
    (after (.zone 15 0xFF 7 40 35) (holding (.zone 15 0xFF 7 40 35) running)).judge.zones.e7 = ⟨false, 32, 47⟩ ∧
      (after (.zone 15 0xFF 8 40 35) (holding (.zone 15 0xFF 8 40 35) running)).link.counts.unknown = 1 := by
  decide +kernel

theorem test_flush :
    let s : State := { running with pair := { running.pair with
      notices := [noticeOf .left 5 .forward none, { noticeOf .left 5 .forward none with sender := 3 }] } }
    ((after (.flush 15 0xFF 1 3) (holding (.flush 15 0xFF 1 3) s)).pair.notices.map (·.sender)) = [2] := by decide +kernel

/-- R175, Table 10-10: page 3 carries the skip counts first. -/
theorem test_query :
    let s : State := { running with sched := { running.sched with element := Eight.all ⟨0, 7, 0, true⟩ } }
    ((after (.query 15 0xFF 3) (holding (.query 15 0xFF 3) s)).link.txQueue.map (·.payload)) =
      [[3, 7, 7, 7, 7, 7, 7, 7, 7, 0, 0, 0, 0, 0]] := by decide +kernel

/-- The fields of an ANNOUNCE of the given state, run number and fresh mark, every element enabled, key 5, BACKWARD. -/
def announceOf (fresh : Bool) (state : BitVec 3) (run : BitVec 16) : AnnounceFields :=
  ⟨fresh, state, 0, false, run, 0x1234, 0xFF, Eight.all 0x16⟩

/-- R119: the ANNOUNCE of an unknown peer is answered, one of a known peer in its run is not. -/
theorem test_announce :
    let c := Instr.announce 6 (announceOf false 3 6)
    let once := after c (holding c running)
    once.link.txQueue.length = 1 ∧ once.pair.peers.length = 1 ∧
      (after c (holding c once)).link.txQueue.length = 1 := by decide +kernel

/-- A FIRST notice of station 6 that matches indication 17 (section 7.9): X 1252763, depth 334, key 5, BACKWARD. -/
def notice9 : IndicationFields := ⟨9, 5, false, false, 0, false, 5, 2, 0, 1252763, 334, 200, 4, 0, 0⟩

/-- Table 7-8: at station 2 the match removes 17 and sends nothing (2 is below 6). -/
theorem test_indication_lower :
    let s : State := { running with pair := { running.pair with own := [⟨indication17, false, 0⟩] } }
    (after (.indication 6 notice9) (holding (.indication 6 notice9) s)).pair.own = [] ∧
      (after (.indication 6 notice9) (holding (.indication 6 notice9) s)).link.txQueue = [] := by decide +kernel

/-- Table 7-8: at the higher station the match queues a LATE with the reference. -/
theorem test_indication_higher :
    let s : State := { running with
      control := { running.control with address := 7 }
      pair := { running.pair with own := [⟨indication17, false, 0⟩] } }
    ((after (.indication 6 notice9) (holding (.indication 6 notice9) s)).link.txQueue.map fun f =>
        ((decodeIndication f.payload).state, (decodeIndication f.payload).refAddress,
          (decodeIndication f.payload).refSequence)) = [(3, 6, 9)] := by decide +kernel

theorem test_gap :
    let s : State := { running with pair := withPartner.pair }
    let c := Instr.gap 6 ⟨false, 1, 0x21, 0, 0⟩
    ((after c (holding c s)).pair.peers.map fun q => (q.element.e0.gapOpen, q.element.e1.gapOpen, q.element.e5.gapOpen)) =
      [(true, false, true)] := by decide +kernel

/-- R153: SPAN, FAULT and STATUS notices serve for liveness, unknown kinds are counted too. -/
theorem test_liveness :
    let s : State := { running with
      odo := { running.odo with travel := 5 }
      pair := { withPartner.pair with peers := withPartner.pair.peers.map fun q => { q with live := false } } }
    let span := Instr.span 6 ⟨1, 0, Eight.all 0⟩
    let fault := Instr.fault 6 ⟨5, false, 0, 0, 0, 0⟩
    let status := Instr.status 6 ⟨0, 0⟩
    let other := Instr.unknownKind 6 0x3F [1, 2]
    ([span, fault, status, other].map fun c => (after c (holding c s)).pair.peers.map fun q => (q.live, q.lastHeard)) =
        [[(true, 5)], [(true, 5)], [(true, 5)], [(true, 5)]] ∧
      (after other (holding other s)).link.counts.unknown = 1 := by decide +kernel

/-- R142: a frame that waits starts on the idle line. -/
theorem test_line_idle :
    let s : State := { running with link := { running.link with tx := .waiting, txQueue := [⟨2, 0x18, 2, []⟩] } }
    (after (.lineIdle false) s).link.tx = .sending ∧ (after (.lineIdle true) s).link.tx = .waiting := by decide +kernel

/-- Table 8-4: the frame end of the console's STOP puts it in the receive queue and counts RECEIVED. -/
theorem test_frame_end :
    let s : State := { running with link := { running.link with rx := .frame stopBits none } }
    (after .frameEnd s).link.rxQueue = [⟨1, 0x02, 15, [0xFF]⟩] ∧ (after .frameEnd s).link.counts.received = 1 ∧
      (after .frameEnd s).link.rx = .seeking := by decide +kernel

/-- R144: a 1 heard where a 0 is driven drops the frame. -/
theorem test_transmit_error :
    let s : State := { contending with link := { contending.link with rx := .frame [true] none } }
    (after (.transmitError (.bit true)) s).link.counts.txError = 1 ∧
      (after (.transmitError (.bit true)) s).link.tx = .idle := by decide +kernel

/-- R136, R144: nothing heard at the first 0 drops the frame, on a line that was never heard too; with every bit heard back
the silence is the frame's end and no error. -/
theorem test_nothing_heard :
    let heard : RxState → State := fun rx => { contending with link := { contending.link with rx := rx } }
    (after (.transmitError .nothing) (heard (.frame [true] none))).link.counts.txError = 1 ∧
      (after (.transmitError .nothing) (heard .idle)).link.counts.txError = 1 ∧
      (after (.transmitError .nothing) (heard (.frame contending.link.ownBits none))).link.counts.txError = 0 := by
  decide +kernel

/-- Table 8-9: a halt symbol of 250 µs cuts the frame and keeps it. -/
theorem test_halt_symbol :
    (after (.haltSymbol (.released 250000)) contending).link.counts.aborted = 1 ∧
      (after (.haltSymbol (.released 250000)) contending).link.tx = .waiting ∧
      (after (.haltSymbol (.released 250000)) contending).control.state = .halted ∧
      ((after (.haltSymbol (.released 250000)) contending).link.txQueue.map (·.kind)) = [0x18, Kind.gap, Kind.status] := by
  decide +kernel

/-- R147: one stuck stretch reports one LINK_STUCK fault. -/
theorem test_stuck :
    (after .stuckLine (after .stuckLine running)).control.faults.records.length = 1 ∧
      (after .stuckLine running).link.tx = .silenced := by decide +kernel

/-- Table 8-2, R137, R138: the pulses' effects. -/
theorem test_pulses :
    (after (.noisePulse (.released 499)) running).link.counts.noise = 1 ∧
    (after (.formError (.released 5000)) { running with link := { running.link with rx := .idle } }).link.counts.rxForm = 1 ∧
    (after (.leadMark (.released 10000)) { running with link := { running.link with rx := .idle } }).link.rx = .frame [] none ∧
    (after (.bitReceived (.released 1000)) { running with link := { running.link with rx := .frame [false] none } }).link.rx =
      .frame [false, true] none ∧
    (after (.waitForIdleRestart (.released 3000)) { running with link := { running.link with quiet := 1999 } }).link.quiet = 0 := by
  decide +kernel

/-- Straps that read address 2 and the given rail strap (R159). -/
def strapped (rails : Level) : Straps := ⟨.low, .high, .low, .low, rails⟩

/-- R159: ADS0 is the lowest bit of the address, and a high rail strap reads RIGHT. -/
theorem test_straps :
    strapAddress ⟨.high, .low, .low, .high, .low⟩ = 9 ∧ strapAddress (strapped .low) = 2 ∧
      (after (.reset .line (strapped .high)) State.reset).control.rail = .right := by decide +kernel

/-- R158: a LINE reset keeps the fault file, a POWER reset empties it. -/
theorem test_reset :
    let s : State := { running with control := { running.control with faults := ⟨[⟨.encoder, 0, none, 4, 3⟩], true, 3⟩ } }
    (after (.reset .line (strapped .low)) s).control.faults.firstIndex = 3 ∧
      (after (.reset .power (strapped .low)) s).control.faults = FaultFile.empty ∧
      (after (.reset .line (strapped .high)) (after (.heldInReset .supply) s)).control.cause = .supply := by decide +kernel

/-- R26, R33: a listening end of a READY station goes OFF without a recovery. -/
theorem test_listening_end :
    let s : State := { quietRunning with
      sched := { quietRunning.sched with state := .listening ⟨noElements, 0, 0, ⟨0, 0⟩, noElements⟩ } }
    (match exec (.listeningEnd (Eight.all [])) { s with control := { s.control with state := .ready } } with
      | .next _ => true
      | _ => false) = true := by decide +kernel

/-- Two blocks' acts in three free orders: each block's own order is kept (log 1). -/
theorem test_free_order :
    let lanes : List (List (Mark × Nat)) := [[(.loose, 1), (.loose, 2)], [(.loose, 3), (.loose, 4)]]
    freeMerge (fun _ => 0) 4 [] lanes = [1, 2, 3, 4] ∧ freeMerge (fun _ => 1) 4 [] lanes = [3, 4, 1, 2] ∧
      freeMerge id 4 [] lanes = [3, 1, 4, 2] := by decide

/-- R60: the closings of the advance (1, 2) and those of the fire (4) do not mix, whatever the order, while another
block's act (9) may fall between them. -/
theorem test_tells_apart :
    let lanes : List (List (Mark × Nat)) :=
      [[(.tracker .advance, 1), (.tracker .advance, 2)], [(.tracker .fire, 4)], [(.loose, 9)]]
    freeMerge (fun n => if n = 2 then 1 else 0) 4 [] lanes = [1, 9, 2, 4] ∧
      freeMerge (fun n => n + 1) 4 [] lanes = [4, 9, 1, 2] := by decide

/-- R102: the monitor's travel advance (7) does not fall into the requests of a fire (1, 2), while a closing of the tracker
(4) may. -/
theorem test_requests_whole :
    let lanes : List (List (Mark × Nat)) :=
      [[(.monitor .fire, 1), (.monitor .fire, 2)], [(.monitor .advance, 7)], [(.tracker .advance, 4)]]
    freeMerge (fun n => if n = 2 then 1 else 0) 4 [] lanes = [1, 4, 2, 7] ∧
      freeMerge (fun n => n) 4 [] lanes = [1, 2, 4, 7] ∧ freeMerge (fun _ => 1) 4 [] lanes = [7, 4, 1, 2] := by decide

/-- R137: a pulse that begins in FRAME and stands for 5 µs makes the receiver give the frame up, and the wait for its end
does not run under it; released past 5 µs it is a form error, released past 100 µs a halt symbol. -/
theorem test_pulse_stands :
    let s : State := after (.bitReceived .begins) { running with link := { running.link with rx := .frame [true] none } }
    s.link.pulse = some 0 ∧
      ({ s.link with pulse := some 248 } : Link).tick.rx = .frame [true] none ∧
      ({ s.link with pulse := some 249 } : Link).tick.rx = .frame [] none ∧
      ({ s.link with pulse := some 600, quiet := 600 } : Link).frameEndDue = false ∧
      ({ s.link with pulse := some 100001 } : Link).stuckDue = true ∧
      (after (.formError (.released 30000)) s).link.counts.rxForm = 1 ∧
      (after (.haltSymbol (.released 250000)) s).control.state = .halted := by decide +kernel

/-- R136: while its frame goes out the part drives the line; a pulse that has stood for 5 µs in FRAME, or for more than 12 µs
in IDLE, is none of its own marks and stops it, before the release says that the frame is aborted (R146). -/
theorem test_stops_driving :
    let at_ (rx : RxState) (held : Nat) : Link := { contending.link with rx := rx, pulse := some held }
    (at_ (.frame [true] none) 248).tick.driving = true ∧ (at_ (.frame [true] none) 249).tick.driving = false ∧
      (at_ .idle 599).tick.driving = true ∧ (at_ .idle 600).tick.driving = false ∧
      (at_ (.frame [true] none) 249).tick.tx = .sending ∧
      (after (.haltSymbol (.released 250000)) { contending with link := (at_ (.frame [true] none) 249).tick }).link.tx =
        .waiting := by decide +kernel

/-- R138, R142: a pulse begun while the receiver seeks keeps the line from becoming idle; a noise pulse leaves the wait as
it was, so that a frame then starts at once on the idle line. -/
theorem test_pulse_and_idle :
    let s : State := { running with link := { running.link with quiet := 1950, rx := .seeking } }
    (after (.waitForIdleRestart .begins) s).link.tick.quiet = 1950 ∧
      (after (.noisePulse (.released 400)) { s with link := { s.link with pulse := some 20 } }).link.quiet = 1970 ∧
      (let idle := after (.noisePulse (.released 400)) (after (.lineIdle true) s)
       idle.link.pulse = none ∧ (idle.queueStatus 0).link.tx = .sending) ∧
      ((after (.lineIdle true) s).queueStatus 0).link.tx = .waiting := by decide +kernel

/-- The queue of commands: a step takes the front one, and the word interface spells none. -/
theorem test_step_queue :
    (match step { State.reset with pending := [.liftLineChange .high, .stillness] } with
      | .next t => (t.pins.lift, t.pending)
      | _ => (.low, [])) = (.high, [.stillness]) ∧ State.reset.withFetchWord 8 0x42 = State.reset := by decide +kernel

/-! ## Witnesses: a state and operands that meet every statement's hypotheses, clause by clause -/

/-- The frame of a frame command. -/
def frameFor (c : Instr) : Frame := (commandFrame c).getD ⟨0, 0, 0, []⟩

theorem waits_of (c : Instr) (s : State) (f : commandFrame c = some (frameFor c)) (r : frameCommand (frameFor c) = c)
    (t : s.canTake (frameFor c) = true) : (holding c s).waits (frameFor c) [] c :=
  ⟨by simp only [holding, f]; rfl, r, t⟩

/-- `s` with `n` frames waiting in the transmit queue. -/
def queued (n : Nat) (s : State) : State :=
  { s with link := { s.link with tx := .waiting, txQueue := List.replicate n ⟨2, 0x18, 2, []⟩ } }

/-- `s` on a line recessive for `quiet` ticks, or with a pulse on it that has lasted `pulse`. -/
def onLine (rx : RxState) (quiet : Nat) (pulse : Option Nat) (s : State) : State :=
  { s with link := { s.link with rx := rx, quiet := quiet, pulse := pulse } }

/-- A queue of two commands; and with none, each event at the limit at which it is due and one tick before, with none of
those that go first. -/
theorem witness_StepRunsFrontCommandElseDueEvent :
    ({ State.reset with pending := [.stillness, .runEnd] } : State).pending = .stillness :: [.runEnd] ∧
      ({ running with control := { running.control with runEndPending := true } } : State).dueCommand = some .runEnd ∧
      (running.pending = [] ∧ running.dueCommand = none ∧ running.operandsDue = false) ∧
      (let s := holding (.stop 15 0xFF) running
       s.runEndDue = false ∧ s.link.rxQueue.head? = some (frameFor (.stop 15 0xFF)) ∧
         s.control.runEndPending = false) ∧
      (let at_ : Nat → State := fun n => { running with odo := { running.odo with sinceEdge := n } }
       (at_ 49999999).dueCommand = none ∧ (at_ 50000000).dueCommand = some .stillness ∧
         5000000 * running.station.stillTime = 50000000) ∧
      ((onLine .seeking 0 (some 100000) running).dueCommand = none ∧
        (onLine .seeking 0 (some 100001) running).dueCommand = some .stuckLine) ∧
      ((onLine (.frame [true] none) 599 none running).dueCommand = none ∧
        (onLine (.frame [true] none) 600 none running).dueCommand = some .frameEnd ∧
        (onLine (.frame [true] none) 600 none contending).dueCommand = none) ∧
      ((onLine .seeking 1999 none running).dueCommand = none ∧
        (onLine .seeking 2000 none running).dueCommand = some (.lineIdle false)) ∧
      (let waits (a lift settle listen : Nat) : State := { running with
         odo := { running.odo with timingA := some a, liftHeld := some lift }
         pulser := { running.pulser with hv := .settling settle }
         sched := { running.sched with state := .listening ⟨noElements, listen, 0, ⟨0, 0⟩, noElements⟩ } }
       (waits 9 999999 99999 1).operandsDue = false ∧ (waits 10 999999 99999 1).operandsDue = true ∧
         (waits 9 1000000 99999 1).operandsDue = true ∧ (waits 9 999999 100000 1).operandsDue = true ∧
         (waits 9 999999 99999 0).operandsDue = true ∧ 5 * running.station.encoderFilter = 10 ∧
         50000 * running.station.liftFilter = 1000000) := by decide +kernel

theorem witness_GoodImageMakesReady :
    State.reset.control.state = .starting ∧ State.reset.hold = ⟨false, false, false⟩ ∧ State.reset.link = Link.afterReset ∧
      ∃ memory id config, checkImage (loadedBytes memory) = .good id config :=
  ⟨rfl, rfl, rfl, _, _, _, test_good_image⟩

theorem witness_BadImageMakesUnconfigured :
    checkImage (loadedBytes []) = .structurallyBad ∧ ∃ memory, checkImage (loadedBytes memory) = .stationBad 0x1234 11 :=
  ⟨by decide +kernel, _, test_station_bad⟩

theorem witness_LineChangesTimeTheFilters :
    running.odo.active = true ∧ running.pins.encoder .a ≠ .high ∧ running.pins.encoder .b ≠ .high ∧
      running.pins.lift ≠ .high ∧ State.reset.odo.active = false ∧ running.pins.encoder .a = .low ∧
      running.pins.lift = .low := by decide

/-- Line A has moved and its filter is timing. -/
def edgeDue : State :=
  { running with odo := { running.odo with timingA := some 10 }, pins := { running.pins with encA := .high } }

/-- Both lines have moved and both filters complete together. -/
def bothDue : State :=
  { edgeDue with
    odo := { edgeDue.odo with timingB := some 10 }
    pins := { edgeDue.pins with encB := .high } }

/-- `edgeDue` with a FREE scheduler, READY high voltage, and every element due when the edge has been counted. -/
def edgeFires : State :=
  { edgeDue with
    sched := { state := .free, element := Eight.all ⟨500, 0, 0, false⟩ }
    pulser := ⟨.ready, Eight.all 0⟩ }

/-- A FORWARD and a BACKWARD edge; a STILL station with the still mark set, no element due at the new travel, and a chain
that the edge leaves open; an OFF scheduler, a LIFTED station and a high voltage that is OFF, each with every element due,
where no shot can form; an edge that reaches the span end with two places left; and an edge at which every element falls
due and the shot that forms has just the places for its notices. -/
theorem witness_AcceptedEdgeMovesTheOdometer :
    (edgeDue.odo.active = true ∧
      (let o := edgeDue.odo.accept .a edgeDue.pins.encA edgeDue.pins.encB
       decodeEdge edgeDue.station.encoderInvert edgeDue.odo.filteredA edgeDue.odo.filteredB o.filteredA o.filteredB =
         .forward) ∧
      (let s : State := { edgeDue with odo := { edgeDue.odo with filteredA := .high, filteredB := .high, timingB := some 9 } }
       let o := s.odo.accept .b s.pins.encA s.pins.encB
       decodeEdge s.station.encoderInvert s.odo.filteredA s.odo.filteredB o.filteredA o.filteredB = .backward)) ∧
      (let s : State := { edgeDue with
         odo := { edgeDue.odo with stillMark := true }
         control := { edgeDue.control with state := .still }
         sched := { edgeDue.sched with element := Eight.all ⟨501, 0, 0, false⟩ }
         tracker := { edgeDue.tracker with chains := [{ chain42 with lastTravel := 0 }] }
         link := (queued 22 edgeDue).link }
       ((s.odo.stillMark && s.control.state == .still) = true ∧ s.sched.state = .off ∧ s.pulser.hv = .off ∧
         s.nothingDue (min (s.odo.travel + s.station.edgePitch) Config.travelMax) ∧
         1000 * (s.elem 2).chainGap = 10000 ∧ s.tracker.inFlight = none) ∧ s.hasRoomFor 2) ∧
      (let due (s : State) : Prop := ¬ s.nothingDue (min (s.odo.travel + s.station.edgePitch) Config.travelMax)
       let lifted : State := { edgeFires with control := { edgeFires.control with state := .lifted } }
       edgeDue.sched.state = .off ∧ edgeDue.control.state = .running ∧ due edgeDue ∧
         lifted.control.state ≠ .running ∧ due lifted ∧
         (let s : State := { edgeFires with pulser := ⟨.off, Eight.all 0⟩ }
          s.pulser.hv ≠ .ready ∧ due s)) ∧
      (let s : State := { queued 22 edgeDue with
         odo := { edgeDue.odo with travel := 9999500 }
         sched := { edgeDue.sched with element := Eight.all ⟨10000001, 0, 0, false⟩ } }
       s.cover.accounting = .active ∧ s.tracker.chains = [] ∧
         s.nothingDue (min (s.odo.travel + s.station.edgePitch) Config.travelMax) ∧
         s.cover.spanStart + 1000000 * s.station.spanLength = s.odo.travel + s.station.edgePitch) ∧
      (edgeFires.sched.state = .free ∧ edgeFires.control.state = .running ∧ edgeFires.pulser.hv = .ready ∧
        edgeFires.tracker.inFlight = none ∧ edgeFires.control.enableMask.get 0 = true ∧
        (edgeFires.sched.element.get 0).nextDue ≤ edgeFires.odo.travel + edgeFires.station.edgePitch ∧
        (takeShot edgeFires.station [0, 1, 2, 3, 4, 5, 6, 7]).length = 3 ∧
        ∀ e, edgeFires.thirdBad (Eight.all 1000000) [0, 1, 3] e = false) ∧
      (queued 13 edgeFires).hasRoomFor (edgeFires.tracker.chains.length + 3 * 3 + 2) := by
  unfold State.nothingDue
  refine ⟨by decide +kernel, ⟨by decide +kernel, Nat.le_of_ble_eq_true rfl⟩, by decide +kernel, by decide +kernel,
    by decide +kernel, Nat.le_of_ble_eq_true rfl⟩

/-- One millimetre short of the hysteresis, exactly at it, and the same while BACKWARD. -/
theorem witness_ReversalTakesTheHysteresis :
    let o : Odometer := { running.odo with pos := ⟨997, 0⟩, extreme := ⟨1001, 500⟩ }
    o.direction = .forward ∧
      1000 * ((5 : Nat) : Int) ≤ max o.extreme.micros (o.pos.move (-500)).micros - (o.pos.move (-500)).micros ∧
      max o.extreme.micros (o.pos.move (-499)).micros - (o.pos.move (-499)).micros < 1000 * ((5 : Nat) : Int) ∧
      (let b : Odometer := { running.odo with direction := .backward, pos := ⟨1005, 500⟩, extreme := ⟨1001, 0⟩ }
       b.direction = .backward ∧
       1000 * ((5 : Nat) : Int) ≤ (b.pos.move 500).micros - min b.extreme.micros (b.pos.move 500).micros ∧
       (b.pos.move 499).micros - min b.extreme.micros (b.pos.move 499).micros < 1000 * ((5 : Nat) : Int)) := by
  decide +kernel

/-- `bothDue` with a fault file of `n` records, its overflow mark, `q` frames queued and the TXQ_FULL mark. -/
def illegal (n : Nat) (overflow : Bool) (q : Nat) (full : Bool) : State :=
  { queued q bothDue with control := { bothDue.control with
      faults := ⟨List.replicate n ⟨.linkStuck, 0, none, 0, 0⟩, overflow, 0⟩
      episodes := { bothDue.control.episodes with txqFull := full } } }

/-- Every clause: overflow marked, the last place of the file, a full file, and a full transmit queue in and before a
TXQ_FULL episode. -/
theorem witness_IllegalTransitionRecordsAFault :
    (bothDue.odo.active = true ∧ bothDue.odo.timingA.isSome = true ∧ bothDue.odo.timingB.isSome = true ∧
      bothDue.pins.encA ≠ bothDue.odo.filteredA ∧ bothDue.pins.encB ≠ bothDue.odo.filteredB) ∧
      (illegal 8 true 0 false).control.faults.overflow = true ∧
      ((illegal 7 false 23 false).control.faults.overflow = false ∧
        (illegal 7 false 23 false).control.faults.records.length < 8 ∧ (illegal 7 false 23 false).hasRoomFor 1) ∧
      ((illegal 8 false 23 false).control.faults.overflow = false ∧
        8 ≤ (illegal 8 false 23 false).control.faults.records.length ∧ (illegal 8 false 23 false).hasRoomFor 1) ∧
      ((illegal 7 false 24 true).control.faults.records.length < 8 ∧ 24 ≤ (illegal 7 false 24 true).link.txQueue.length ∧
        (illegal 7 false 24 true).control.episodes.txqFull = true) ∧
      ((illegal 6 false 24 false).control.faults.records.length < 7 ∧
        24 ≤ (illegal 6 false 24 false).link.txQueue.length ∧
        (illegal 6 false 24 false).control.episodes.txqFull = false) := by
  unfold State.hasRoomFor; decide +kernel

theorem witness_StillnessTakesRunningToStill :
    running.odo.active = true ∧ running.odo.stillMark = false ∧ running.control.state = .running ∧
      (queued 23 running).hasRoomFor 1 ∧ (station .ready).odo.active = true ∧ (station .ready).control.state ≠ .running :=
  ⟨rfl, rfl, rfl, Nat.le_of_ble_eq_true rfl, rfl, by decide⟩

def liftDue : State := { running with odo := { running.odo with liftLevel := .high, liftHeld := some 1000000 } }

/-- A lowered recognition that is due in LIFTED, with the scheduler in the given state, no element due, and 15 notices
queued. -/
def lowering (st : SchedState) : State :=
  let s := queued 15 running
  { s with
    odo := { s.odo with lift := .raised, liftLevel := .low, liftHeld := some 1000000 }
    sched := ⟨st, Eight.all ⟨1, 0, 0, false⟩⟩
    control := { s.control with state := .lifted } }

/-- RAISED in RUNNING and in STILL; a state already held; RAISED in READY and LOWERED in HALTED; LOWERED in LIFTED with an
OFF and with a RECOVERING scheduler, with an OFF scheduler and the high voltage OFF while every element is due, and with
READY high voltage and every element due. -/
theorem witness_LiftRecognitionsMoveTheStation :
    (liftDue.odo.active = true ∧ liftDue.odo.liftHeld = some 1000000 ∧
      liftDue.odo.liftLevel = liftDue.station.liftActive ∧ liftDue.odo.lift = .lowered ∧
      liftDue.control.state = .running ∧ liftDue.cover.accounting = .active ∧
      ({ liftDue with control := { liftDue.control with state := .still } } : State).control.state = .still ∧
      ({ liftDue with odo := { liftDue.odo with lift := .raised } } : State).odo.lift = .raised ∧
      (station .ready).control.state ≠ .running ∧ (station .ready).control.state ≠ .still ∧
      (station .halted).control.state ≠ .lifted ∧ (lowering .off).odo.liftLevel ≠ (lowering .off).station.liftActive ∧
      (lowering .off).odo.lift = .raised ∧ (lowering .off).control.state = .lifted ∧ (lowering .off).sched.state = .off ∧
      (lowering (.recovering 9)).sched.state ≠ .off ∧ (lowering (.recovering 9)).sched.state ≠ .free ∧
      (let s : State := { lowering .off with odo := { (lowering .off).odo with travel := 1 } }
       s.pulser.hv ≠ .ready ∧ s.control.enableMask.get 0 = true ∧ (s.sched.element.get 0).nextDue ≤ s.odo.travel) ∧
      (let s : State := { lowering .off with pulser := ⟨.ready, Eight.all 0⟩, odo := { (lowering .off).odo with travel := 1 } }
       s.pulser.hv = .ready ∧ s.control.enableMask.get 0 = true ∧ (s.sched.element.get 0).nextDue ≤ s.odo.travel)) ∧
      (lowering .off).nothingDue (lowering .off).odo.travel ∧ (lowering .off).hasRoomFor 9 ∧ liftDue.hasRoomFor 2 := by
  unfold State.nothingDue State.hasRoomFor; decide +kernel

/-- A shot of element 2 in flight. -/
def listening : State :=
  { running with
    sched := { running.sched with state := .listening ⟨noElements.set 2 true, 0, 1000, ⟨1000, 0⟩, noElements⟩ }
    tracker := { running.tracker with chains := [chain42], inFlight := some (noElements.set 2 true) }
    pulser := ⟨.ready, Eight.all 0⟩ }

theorem witness_ListeningEndDeliversTheShot :
    (∃ shot, listening.sched.state = .listening shot ∧ shot.set.get 2 = true) ∧ listening.control.state ≠ .ready ∧
      ({ listening with control := { listening.control with state := .ready } } : State).control.state = .ready ∧
      listening.cover.accounting = .active ∧ (station .ready).cover.accounting = .idle :=
  ⟨⟨_, rfl, by decide⟩, by decide, rfl, rfl, rfl⟩

def recovering : State := { quietRunning with sched := { quietRunning.sched with state := .recovering 0 } }

/-- Every clause: STILL, LIFTED from STILL, LIFTED from RUNNING, RUNNING with the high voltage OFF, and RUNNING with it
READY and every element due one micrometre further on, or due already. -/
theorem witness_RecoveryEndFreesOrStops :
    recovering.sched.state = .recovering 0 ∧ recovering.control.state = .running ∧ recovering.pulser.hv = .ready ∧
      recovering.control.enableMask.get 0 = true ∧ (recovering.sched.element.get 0).nextDue ≤ recovering.odo.travel ∧
      (let s : State := { recovering with sched := { recovering.sched with element := Eight.all ⟨1, 0, 0, false⟩ } }
       ∀ e : Element, s.control.enableMask.get e = true → s.odo.travel < (s.sched.element.get e).nextDue) ∧
      (({ recovering with pulser := ⟨.off, Eight.all 0⟩ } : State).pulser.hv ≠ .ready) ∧
      (({ recovering with control := { recovering.control with state := .still } } : State).control.state = .still) ∧
      (let s : State := { recovering with control := { recovering.control with state := .lifted, liftFromStill := true } }
       s.control.state = .lifted ∧ s.control.liftFromStill = true) ∧
      (let s : State := { recovering with control := { recovering.control with state := .lifted } }
       s.control.state = .lifted ∧ s.control.liftFromStill = false) := by decide +kernel

/-- A settle under way with every element due at travel 0. -/
def settling : State :=
  { running with sched := { running.sched with state := .settling }, pulser := ⟨.settling 100000, Eight.all 0⟩ }

theorem witness_SettleCompleteReadiesThePulsers :
    settling.pulser.hv = .settling 100000 ∧ settling.sched.state = .settling ∧ settling.control.state = .running ∧
      (let s : State := { settling with sched := { settling.sched with element := Eight.all ⟨1, 0, 0, false⟩ } }
       ∀ e : Element, s.control.enableMask.get e = true → s.odo.travel < (s.sched.element.get e).nextDue) ∧
      ({ settling with sched := { settling.sched with state := .off } } : State).sched.state ≠ .settling := by
  decide +kernel

/-- Every element due at travel 0; element 0 fires off its window for the third time, and element 1 for the second; the
fault file has its last place for the record, and the transmit queue just the places for the notices of three elements. -/
theorem witness_DueElementsFireAtTheSettle :
    (settling.pulser.hv = .settling 100000 ∧ settling.sched.state = .settling ∧ settling.control.state = .running ∧
      settling.control.enableMask.get 0 = true ∧ (settling.sched.element.get 0).nextDue ≤ settling.odo.travel ∧
      settling.cover.accounting = .active ∧
      (let s : State := { settling with pulser := { settling.pulser with badFires := ⟨2, 1, 0, 0, 0, 0, 0, 0⟩ } }
       let taken := takeShot s.station s.dueOrder
       taken.head? = some 0 ∧ taken.length = 3 ∧ s.pulser.badFires.get 0 = 2 ∧
         ¬ (500000 ≤ (Eight.all 499999).get (0 : Element) ∧ (Eight.all 499999).get (0 : Element) ≤ 5000000) ∧
         (elements.filter fun e => s.thirdBad (Eight.all 499999) taken e) = [0] ∧
         s.control.faults.overflow = false ∧
         (List.replicate 7 (⟨.linkStuck, 0, none, 0, 0⟩ : FaultRecord)).length + 1 ≤ 8)) ∧
      (queued 13 settling).hasRoomFor (settling.tracker.chains.length + 3 * 3 + 2) :=
  ⟨by decide +kernel, Nat.le_of_ble_eq_true rfl⟩

/-- Element 2 is passed over as incompatible with one taken before it, element 0 as it finds the limit reached (Table
2-3). -/
theorem witness_ShotsAreCompatibleAndLimited :
    1 ≤ station2.perShotLimit ∧ forming.dueOrder = [1, 5] ++ 2 :: [6, 0] ∧ forming.dueOrder = [1, 5, 2, 6] ++ 0 :: [] ∧
      forming.dueOrder.Nodup ∧ (2 : Element) ∉ takeShot station2 forming.dueOrder ∧
      (0 : Element) ∉ takeShot station2 forming.dueOrder ∧ (6 : Element) ∈ takeShot station2 forming.dueOrder := by
  decide +kernel

/-- A lag of one pitch less one, of exactly one pitch, and of 0, and the firing that brings the on-grid run to 8. -/
theorem witness_FiringMovesToTheNextGridPoint :
    let e : ElementSched := ⟨48000, 0, 8, false⟩
    0 < 6000 ∧ e.nextDue ≤ 53999 ∧ 53999 - e.nextDue < 6000 ∧ e.nextDue ≤ 54000 ∧ 54000 - e.nextDue = 6000 ∧
      e.nextDue ≤ 48000 ∧ e.onGrid ≠ 7 ∧ ({ e with onGrid := 7 } : ElementSched).onGrid = 7 := by decide

theorem witness_TakingTheHeadShowsTheSender :
    (holding (.stop 15 0xFF) running).link.rxQueue = frameFor (.stop 15 0xFF) :: [] ∧
      ({ running with link := { running.link with rxQueue := [frameFor (.stop 6 2), frameFor (.clear 6 2)] } } :
        State).link.rxQueue = frameFor (.stop 6 2) :: [frameFor (.clear 6 2)] := by decide +kernel

/-- `s` with the carriage recognised RAISED. -/
def raised (s : State) : State := { s with odo := { s.odo with lift := .raised } }

/-- RUN at run number 1 and 65535, with exactly two places left in the transmit queue, in READY and in HALTED; and with the
carriage RAISED and four places left. -/
theorem witness_AcceptedRunStartsARun :
    (holding (.run 15 0xFF 1 0) (queued 22 (station .ready))).waits (frameFor (.run 15 0xFF 1 0)) [] (.run 15 0xFF 1 0) ∧
      (holding (.run 15 0xFF 0xFFFF 0) (queued 22 (station .halted))).waits (frameFor (.run 15 0xFF 0xFFFF 0)) []
        (.run 15 0xFF 0xFFFF 0) ∧
      (holding (.run 15 0xFF 1 0) (raised (queued 20 (station .ready)))).waits (frameFor (.run 15 0xFF 1 0)) []
        (.run 15 0xFF 1 0) ∧
      (1 : BitVec 16) ≠ 0 ∧ (station .ready).sched.state = .off ∧ (station .ready).pulser.hv = .off ∧
      (station .ready).odo.lift = .lowered ∧ (queued 22 (station .ready)).hasRoomFor 2 ∧
      (raised (queued 20 (station .ready))).odo.lift = .raised ∧ (raised (queued 20 (station .ready))).hasRoomFor 4 ∧
      (station .ready).control.configuredMask.get 0 = true :=
  ⟨waits_of _ _ rfl (by decide +kernel) rfl, waits_of _ _ rfl (by decide +kernel) rfl,
    waits_of _ _ rfl (by decide +kernel) rfl, by decide, rfl, rfl, rfl,
    Nat.le_of_ble_eq_true rfl, rfl, Nat.le_of_ble_eq_true rfl, rfl⟩

theorem witness_RefusedRunChangesNoRun :
    (holding (.run 15 0xFF 0 0) running).waits (frameFor (.run 15 0xFF 0 0)) [] (.run 15 0xFF 0 0) ∧
      (holding (.run 15 0xFF 1 0) (queued 23 (station .unconfigured))).waits (frameFor (.run 15 0xFF 1 0)) []
        (.run 15 0xFF 1 0) ∧
      (holding (.run 15 0xFF 1 0) (station .lifted)).waits (frameFor (.run 15 0xFF 1 0)) [] (.run 15 0xFF 1 0) ∧
      (queued 23 (station .unconfigured)).hasRoomFor 1 :=
  ⟨waits_of _ _ rfl (by decide +kernel) rfl, waits_of _ _ rfl (by decide +kernel) rfl,
    waits_of _ _ rfl (by decide +kernel) rfl, Nat.le_of_ble_eq_true rfl⟩

theorem witness_StopMakesTheRunEndPending :
    (holding (.stop 15 0xFF) (station .ready)).waits (frameFor (.stop 15 0xFF)) [] (.stop 15 0xFF) ∧
      (holding (.stop 15 0xFF) (queued 23 listening)).waits (frameFor (.stop 15 0xFF)) [] (.stop 15 0xFF) ∧
      (holding (.stop 15 0xFF) (station .halted)).waits (frameFor (.stop 15 0xFF)) [] (.stop 15 0xFF) ∧
      listening.inRun ∧ (queued 23 listening).hasRoomFor 1 :=
  ⟨waits_of _ _ rfl (by decide +kernel) rfl, waits_of _ _ rfl (by decide +kernel) rfl,
    waits_of _ _ rfl (by decide +kernel) rfl, rfl, Nat.le_of_ble_eq_true rfl⟩

/-- An element whose coupling is coupled, with an open gap and an open loss record. -/
def endingCover : ElementCover :=
  { ElementCover.fresh with coupling := .coupled, causes := { Causes.empty with lifted := true }, gapStart := some 5, backWall := .lost 7 }

/-- A run end that is due, with a chain open, an open gap and an open loss record; and one that waits for its shot. -/
def ending : State :=
  { running with
    control := { running.control with state := .ready, runEndPending := true }
    tracker := { running.tracker with chains := [chain42] }
    cover := { running.cover with element := (Eight.all ElementCover.fresh).set 0 endingCover } }

/-- The closing of `ending`'s chain and loss record leaves room, its gap starts at 5, and a span of no travel and one of
one micrometre have been entered. -/
theorem witness_RunEndClosesTheRun :
    (ending.control.runEndPending = true ∧ ending.sched.state = .off ∧
      ({ ending with sched := listening.sched } : State).sched.state ≠ .off ∧ running.control.runEndPending = false ∧
      (ending.cover.element.get 0).causes.nonempty = true ∧ (ending.cover.element.get 0).gapStart = some 5 ∧
      ending.cover.lastTravel - ending.cover.spanStart = 0 ∧
      0 < ({ ending.cover with lastTravel := 1 } : Coverage).lastTravel - ending.cover.spanStart) ∧
      (elements.foldl (fun u e =>
        match (ending.cover.element.get e).backWall with
        | .lost startX => u.judgeLoss e startX ending.currentX
        | .present => u) (ending.tracker.chains.foldl (fun u c => u.judgeChain c) ending)).hasRoomFor 9 := by
  refine ⟨by decide +kernel, ?_⟩
  unfold State.hasRoomFor; decide +kernel

theorem witness_HaltEndsTheRunAtOnce :
    (holding (.halt 15 0xFF) (station .ready)).waits (frameFor (.halt 15 0xFF)) [] (.halt 15 0xFF) ∧
      (holding (.halt 15 0xFF) (queued 22 listening)).waits (frameFor (.halt 15 0xFF)) [] (.halt 15 0xFF) ∧
      listening.inRun ∧ listening.cover.accounting = .active ∧ listening.control.enableMask.get 0 = true ∧
      (listening.cover.element.get 0).causes.nonempty = false ∧ (ending.cover.element.get 0).causes.nonempty = true ∧
      (queued 22 listening).hasRoomFor 2 :=
  ⟨waits_of _ _ rfl (by decide +kernel) rfl, waits_of _ _ rfl (by decide +kernel) rfl, rfl, rfl, rfl, rfl, rfl,
    Nat.le_of_ble_eq_true rfl⟩

theorem witness_ZoneRequestWritesOneEntry :
    (holding (.zone 15 0xFF 8 0 0) running).waits (frameFor (.zone 15 0xFF 8 0 0)) [] (.zone 15 0xFF 8 0 0) ∧
      (holding (.zone 15 0xFF 7 0 0) running).waits (frameFor (.zone 15 0xFF 7 0 0)) [] (.zone 15 0xFF 7 0 0) ∧
      (holding (.zone 15 0xFF 7 0 0) (station .unconfigured)).waits (frameFor (.zone 15 0xFF 7 0 0)) []
        (.zone 15 0xFF 7 0 0) ∧
      running.control.state ≠ .unconfigured :=
  ⟨waits_of _ _ rfl (by decide +kernel) rfl, waits_of _ _ rfl (by decide +kernel) rfl,
    waits_of _ _ rfl (by decide +kernel) rfl, by decide⟩

theorem witness_FlushEmptiesByScope :
    (∀ scope ∈ ([0, 1, 2, 3, 255] : List Byte),
      (holding (.flush 15 0xFF scope 3) running).waits (frameFor (.flush 15 0xFF scope 3)) [] (.flush 15 0xFF scope 3)) ∧
      (holding (.flush 15 0xFF 2 3) (station .unconfigured)).waits (frameFor (.flush 15 0xFF 2 3)) []
        (.flush 15 0xFF 2 3) ∧
      running.control.state ≠ .unconfigured := by
  refine ⟨fun scope h => waits_of _ _ rfl ?_ rfl, waits_of _ _ rfl (by decide +kernel) rfl, by decide⟩
  simp only [List.mem_cons, List.not_mem_nil, or_false] at h
  rcases h with h | h | h | h | h <;> subst h <;> decide +kernel

theorem witness_ClearAndQueryServeTheConsole :
    (holding (.clear 15 0xFF) running).waits (frameFor (.clear 15 0xFF)) [] (.clear 15 0xFF) ∧
      (holding (.query 15 0xFF 4) (queued 23 running)).waits (frameFor (.query 15 0xFF 4)) [] (.query 15 0xFF 4) ∧
      (holding (.query 15 0xFF 3) running).waits (frameFor (.query 15 0xFF 3)) [] (.query 15 0xFF 3) ∧
      (queued 23 running).hasRoomFor 1 :=
  ⟨waits_of _ _ rfl (by decide +kernel) rfl, waits_of _ _ rfl (by decide +kernel) rfl,
    waits_of _ _ rfl (by decide +kernel) rfl, Nat.le_of_ble_eq_true rfl⟩

/-- Station 2 with an entry for station 6 announced RUNNING in run 6. -/
def knowing : State := { running with pair := withPartner.pair }

/-- A reply in the run, a new run number, a new address and a fresh ANNOUNCE. -/
theorem witness_AnnounceMakesOrRefreshesAnEntry :
    (∀ a ∈ [announceOf false 3 6, announceOf false 3 7, announceOf true 2 0],
      (holding (.announce 6 a) knowing).waits (frameFor (.announce 6 a)) [] (.announce 6 a) ∧
        (stationOf a.state).isSome = true ∧ (causeOf a.cause).isSome = true ∧ (announcedElements a).isSome = true) ∧
      (holding (.announce 9 (announceOf false 3 6)) (queued 23 knowing)).waits
        (frameFor (.announce 9 (announceOf false 3 6))) [] (.announce 9 (announceOf false 3 6)) ∧
      (∃ q, knowing.pair.peers.find? (fun q => q.address == 6) = some q ∧ q.runNumber = 6 ∧ q.state = .running) ∧
      knowing.pair.peers.find? (fun q => q.address == 9) = none ∧ (queued 23 knowing).hasRoomFor 1 := by
  refine ⟨fun a h => ⟨waits_of _ _ rfl ?_ rfl, ?_⟩, waits_of _ _ rfl (by decide +kernel) rfl, ⟨_, rfl, rfl, rfl⟩, rfl,
    Nat.le_of_ble_eq_true rfl⟩ <;>
  · simp only [List.mem_cons, List.not_mem_nil, or_false] at h
    rcases h with h | h | h <;> subst h <;> decide +kernel

/-- `announceOf` with the descriptor of element 0 naming sense 3. -/
def announceSense3 : AnnounceFields := { announceOf false 3 6 with descriptors := (Eight.all 0x16).set 0 0x17 }

theorem witness_UndefinedCodesAreCountedUnknown :
    (holding (.gap 6 ⟨false, 6, 1, 0, 0⟩) knowing).waits (frameFor (.gap 6 ⟨false, 6, 1, 0, 0⟩)) []
        (.gap 6 ⟨false, 6, 1, 0, 0⟩) ∧
      (holding (.announce 6 (announceOf true 7 6)) knowing).waits (frameFor (.announce 6 (announceOf true 7 6))) []
        (.announce 6 (announceOf true 7 6)) ∧
      (holding (.announce 6 announceSense3) knowing).waits (frameFor (.announce 6 announceSense3)) []
        (.announce 6 announceSense3) ∧
      (announceSense3.mask.getLsbD (0 : Element).val = true ∧
        (announceSense3.descriptors.get 0).extractLsb' 0 2 = 3) ∧
      (holding (.indication 6 { notice9 with sense := 3 }) knowing).waits
        (frameFor (.indication 6 { notice9 with sense := 3 })) [] (.indication 6 { notice9 with sense := 3 }) ∧
      knowing.pair.runMark = true :=
  ⟨waits_of _ _ rfl (by decide +kernel) rfl, waits_of _ _ rfl (by decide +kernel) rfl,
    waits_of _ _ rfl (by decide +kernel) rfl, by decide, waits_of _ _ rfl (by decide +kernel) rfl, rfl⟩

theorem witness_PairedNoticeRemovesWhatItNames :
    (holding (.indication 6 notice9) (station .ready)).waits (frameFor (.indication 6 notice9)) [] (.indication 6 notice9) ∧
      (station .ready).pair.runMark = false ∧
      (holding (.indication 6 { notice9 with state := 3, refAddress := 2, refSequence := 17 }) running).waits
        (frameFor (.indication 6 { notice9 with state := 3, refAddress := 2, refSequence := 17 })) []
        (.indication 6 { notice9 with state := 3, refAddress := 2, refSequence := 17 }) ∧
      running.pair.runMark = true ∧ notice9.sense ≠ 3 :=
  ⟨waits_of _ _ rfl (by decide +kernel) rfl, rfl, waits_of _ _ rfl (by decide +kernel) rfl, rfl, by decide⟩

/-- Station 2 with indication 17 listed, and station 7 in its place. -/
def listed (address : BitVec 4) : State :=
  { running with
    control := { running.control with address := address }
    pair := { running.pair with own := [⟨indication17, false, 0⟩] } }

/-- A match at the higher station, with room and with a full transmit queue, and at the lower station; no match and not
awaited (key 4), no match but awaited (X too far off), and such a notice that is stored already. -/
theorem witness_UnpairedNoticeSettlesOrIsStored :
    (holding (.indication 6 notice9) (listed 7)).waits (frameFor (.indication 6 notice9)) [] (.indication 6 notice9) ∧
      (listed 7).pair.runMark = true ∧ senseOf notice9.sense = some .backward ∧ notice9.state = 0 ∧
      indication17.matched (listed 7).station (peerNotice 6 notice9 .backward 0) ∧
      (6 : BitVec 4) < (listed 7).control.address ∧ (listed 7).hasRoomFor 1 ∧
      24 ≤ (queued 24 (listed 7)).link.txQueue.length ∧ (listed 2).control.address ≤ (6 : BitVec 4) ∧
      ((∀ o ∈ (listed 7).pair.own, ¬ o.indication.matched (listed 7).station
          (peerNotice 6 { notice9 with key := 4 } .backward 0)) ∧
        ¬ (listed 7).awaits (peerNotice 6 { notice9 with key := 4 } .backward 0)) ∧
      ((∀ o ∈ (listed 7).pair.own, ¬ o.indication.matched (listed 7).station
          (peerNotice 6 { notice9 with x := 1252780 } .backward 0)) ∧
        (listed 7).awaits (peerNotice 6 { notice9 with x := 1252780 } .backward 0)) ∧
      (let stored := peerNotice 6 { notice9 with x := 1252790 } .backward 0
       stored.sender = 6 ∧ stored.sequence = notice9.sequence.toNat) := by
  refine ⟨waits_of _ _ rfl (by decide +kernel) rfl, rfl, by decide, by decide, ?_, by decide,
    Nat.le_of_ble_eq_true rfl, by decide +kernel, by decide, ⟨?_, ?_⟩, ⟨?_, ?_⟩, by decide +kernel⟩
  · exact ⟨rfl, rfl, by decide, .inl ⟨rfl, rfl⟩, by decide +kernel, Nat.le_of_ble_eq_true rfl⟩
  · intro o ho h
    obtain rfl := List.mem_singleton.1 ho
    exact absurd h.2.1 (by decide +kernel)
  · unfold State.awaits Sense.completes; decide +kernel
  · intro o ho h
    obtain rfl := List.mem_singleton.1 ho
    exact absurd h.2.2.2.2.1 (by decide +kernel)
  · unfold State.awaits Sense.completes; decide +kernel

theorem witness_GapNoticeSetsTheMarks :
    (holding (.gap 6 ⟨true, 5, 0xFF, 0, 0⟩) knowing).waits (frameFor (.gap 6 ⟨true, 5, 0xFF, 0, 0⟩)) []
        (.gap 6 ⟨true, 5, 0xFF, 0, 0⟩) ∧
      (5 : BitVec 3) ≠ 6 ∧ (5 : BitVec 3) ≠ 7 ∧ knowing.pair.peers.map (·.address) = [6] :=
  ⟨waits_of _ _ rfl (by decide +kernel) rfl, by decide, by decide, rfl⟩

theorem witness_OtherNoticesServeForLiveness :
    (holding (.span 6 ⟨1, 0, Eight.all 0⟩) knowing).waits (frameFor (.span 6 ⟨1, 0, Eight.all 0⟩)) []
        (.span 6 ⟨1, 0, Eight.all 0⟩) ∧
      (holding (.fault 6 ⟨5, false, 0, 0, 0, 0⟩) knowing).waits (frameFor (.fault 6 ⟨5, false, 0, 0, 0, 0⟩)) []
        (.fault 6 ⟨5, false, 0, 0, 0, 0⟩) ∧
      (holding (.status 6 ⟨0, 0⟩) knowing).waits (frameFor (.status 6 ⟨0, 0⟩)) [] (.status 6 ⟨0, 0⟩) ∧
      (holding (.unknownKind 6 0x3F [1]) knowing).waits (frameFor (.unknownKind 6 0x3F [1])) [] (.unknownKind 6 0x3F [1]) :=
  ⟨waits_of _ _ rfl (by decide +kernel) rfl, waits_of _ _ rfl (by decide +kernel) rfl,
    waits_of _ _ rfl (by decide +kernel) rfl, waits_of _ _ rfl (by decide +kernel) rfl⟩

theorem witness_FrameRowsStandForTheirFrames :
    commandFrame (.stop 15 0xFF) = some (frameFor (.stop 15 0xFF)) ∧ (Instr.stop 15 0xFF).wellFormed = true ∧
      running.link.rxQueue = [] ∧ running.link.rx ≠ .inactive ∧ State.reset.link.rx = .inactive ∧
      State.reset.link.rxQueue = [] ∧ (frameFor (.stop 15 0xFF)).source ≠ running.control.address ∧
      destinationIncludes (byteAt (frameFor (.stop 15 0xFF)).payload 0) running.control.address running.control.rail =
        true ∧
      running.control.runEndPending = false := by decide +kernel

/-- The last free place of the transmit queue and a full one; each receiver state of the clauses on LINE_IDLE, and a pulse
on the line. -/
theorem witness_QueuedFramesStartOnAnIdleLine :
    (queued 23 running).hasRoomFor 1 ∧ 24 ≤ (queued 24 running).link.txQueue.length ∧
      running.link.rx = .seeking ∧ running.link.pulse = none ∧
      ({ running with link := { running.link with rx := .idle } } : State).link.rx = .idle ∧
      State.reset.link.rx = .inactive ∧ (∃ bits cut, contending.link.rx = .frame bits cut) ∧
      (after (.haltSymbol .begins) running).link.pulse ≠ none :=
  ⟨Nat.le_of_ble_eq_true rfl, by decide, rfl, rfl, rfl, rfl, ⟨_, _, rfl⟩, by decide +kernel⟩

/-- The own frame heard back whole; it is the thirteenth of the queue, so that its leaving ends a TXQ_FULL episode. -/
def sendingWhole : State :=
  { queued 13 running with link := { (queued 13 running).link with
      tx := .sending, rx := .frame (Frame.bits ⟨2, 0x18, 2, []⟩) none } }

theorem witness_OwnFrameHeardBackIsSent :
    sendingWhole.link.tx = .sending ∧
      (∃ rest, sendingWhole.link.txQueue = ⟨2, 0x18, 2, []⟩ :: rest ∧ rest.length = 12) ∧
      sendingWhole.link.rx = .frame (Frame.bits ⟨2, 0x18, 2, []⟩) none ∧ sendingWhole.link.pulse = none :=
  ⟨rfl, ⟨List.replicate 12 ⟨2, 0x18, 2, []⟩, rfl, rfl⟩, rfl, rfl⟩

def hearing (bits : List Bool) : State := { running with link := { running.link with rx := .frame bits none } }

/-- One bit short, a bad CRC, a STOP to the right rail, a STOP to all, and a receive queue of three and of four, in and
before an RXQ_OVERRUN episode; and a pulse on the line. -/
theorem witness_ReceivedFramesAreJudged :
    ((hearing stopBits).link.tx ≠ .sending ∧ (hearing stopBits).link.pulse = none ∧
      judgeBits (stopBits.take 31) = .badShape ∧
      judgeBits (([0x42, 0xF1, 0xFF, 0x88] : List Byte).flatMap byteBits) = .badCrc ∧
      judgeBits (Frame.bits ⟨1, 0x02, 15, [0x81]⟩) = .good ⟨1, 0x02, 15, [0x81]⟩ ∧
      destinationIncludes 0x81 running.control.address running.control.rail = false ∧
      judgeBits stopBits = .good ⟨1, 0x02, 15, [0xFF]⟩ ∧ (15 : BitVec 4) ≠ running.control.address ∧
      destinationIncludes 0xFF running.control.address running.control.rail = true ∧
      (List.replicate 3 (frameFor (.clear 6 2))).length < 4 ∧ (List.replicate 4 (frameFor (.clear 6 2))).length = 4 ∧
      running.control.episodes.rxqOverrun = false ∧
      ({ running.control.episodes with rxqOverrun := true } : Episodes).rxqOverrun = true ∧
      running.control.faults.overflow = false ∧ running.control.faults.records.length < 8 ∧
      (after (.haltSymbol .begins) running).link.pulse ≠ none) ∧ (queued 23 running).hasRoomFor 1 :=
  ⟨by decide +kernel, Nat.le_of_ble_eq_true rfl⟩

theorem witness_OwnAddressFromAnotherIsAClash :
    ((hearing (Frame.bits ⟨1, 0x02, 2, [0xFF]⟩)).link.tx ≠ .sending ∧
      (hearing (Frame.bits ⟨1, 0x02, 2, [0xFF]⟩)).link.pulse = none ∧
      judgeBits (Frame.bits ⟨1, 0x02, 2, [0xFF]⟩) = .good ⟨1, 0x02, 2, [0xFF]⟩ ∧ (2 : BitVec 4) = running.control.address ∧
      running.control.faults.overflow = false ∧ running.control.faults.records.length < 8) ∧
      (queued 23 running).hasRoomFor 1 :=
  ⟨by decide +kernel, Nat.le_of_ble_eq_true rfl⟩

/-- Arbitration lost at bit 12, a 1 heard over the 0 of bit 2, a 0 over a 1 at bit 17, the first after the field, a pulse
of each length, and a pulse that has stood for one tick less than each class allows; nothing heard at the 0 of bit 2, on a
line whose lead mark was not heard, and after the last bit. -/
theorem witness_ContentionIsLostOrDropped :
    let own : Frame := ⟨2, 0x18, 3, [0xFF]⟩
    contending.link.tx = .sending ∧ contending.link.txQueue = [⟨2, 0x18, 3, List.replicate 15 0⟩] ∧
      (Frame.bits ⟨2, 0x18, 3, List.replicate 15 0⟩)[11]? = some true ∧
      (Frame.bits ⟨2, 0x18, 3, List.replicate 15 0⟩)[1]? = some false ∧ own.bits[16]? = some true ∧
      (5000 ≤ 99999 ∧ 99999 < 100000) ∧ contending.link.pulse = none ∧
      20 * (some 99).getD 0 < 2000 ∧ 20 * (some 249).getD 0 < 5000 ∧ 20 * (some 4999).getD 0 < 100000 ∧
      ({ contending.link with rx := .idle } : Link).rx = .idle ∧ false ∈ own.bits ∧
      ∀ k, own.bits.length ≤ k → own.bits[k]? ≠ some false := by
  refine ⟨by decide +kernel, by decide +kernel, by decide +kernel, by decide +kernel, by decide +kernel,
    by decide, by decide +kernel, by decide, by decide, by decide, rfl, by decide +kernel, fun k h => ?_⟩
  rw [List.getElem?_eq_none h]; exact nofun

/-- Both ends of the halt symbol's length, with no pulse known to be on the line and with one that has stood for 2 ms. -/
theorem witness_HaltSymbolAbortsAndHalts :
    running.link.rx ≠ .inactive ∧ max 100000 (20 * running.link.pulse.getD 0) = 100000 ∧
      max 2000000 (20 * (some 100000).getD 0) = 2000000 ∧ max 100000 (20 * (some 100000).getD 0) = 2000000 ∧
      running.control.state.inRun = true ∧ running.cover.accounting = .active ∧ contending.link.tx = .sending ∧
      (queued 1 running).link.tx ≠ .idle ∧ (station .ready).control.state.inRun = false ∧
      running.control.enableMask.get 0 = true ∧ (running.cover.element.get 0).causes.nonempty = false ∧
      (ending.cover.element.get 0).causes.nonempty = true ∧ (queued 22 running).hasRoomFor 2 := by
  unfold State.hasRoomFor; decide +kernel

/-- Both sides of the mark, and the release of a pulse that has just passed 2 ms. -/
theorem witness_StuckLineSilencesTheTransmitter :
    (running.link.rx ≠ .inactive ∧ running.link.tx ≠ .silenced ∧ running.control.faults.overflow = false ∧
      running.control.faults.records.length < 8 ∧ (after .stuckLine running).link.tx = .silenced ∧
      (after .stuckLine running).link.rx ≠ .inactive ∧ 2000000 < max 2000001 (20 * running.link.pulse.getD 0) ∧
      2000000 < max 500 (20 * (after .stuckLine running).link.pulse.getD 0) ∧
      (Instr.waitForIdleRestart (.released 2000001)).wellFormed = true) ∧ (queued 23 running).hasRoomFor 1 :=
  ⟨by decide +kernel, Nat.le_of_ble_eq_true rfl⟩

/-- Each class at the edges of its lengths (Table 8-2), of a transmitter that is not SENDING and of one that is, in IDLE and
in FRAME; a pulse that has stood for a tick less than 5 µs, and one that has stood for 12 µs. -/
theorem witness_PulsesActByLengthAndState :
    running.link.tx ≠ .sending ∧ running.link.rx = .seeking ∧ 499 < 500 ∧ (500 ≤ 7999 ∧ 7999 < 8000) ∧
      (12000 < 12001 ∧ 99999 < 100000) ∧ (hearing []).link.rx = .frame [] none ∧ 5000 ≤ 5000 ∧ 8000 ≤ 8000 ∧
      12000 ≤ 12000 ∧ ({ running with link := { running.link with rx := .idle } } : State).link.rx = .idle ∧
      State.reset.link.rx = .inactive ∧
      (contending.link.tx = .sending ∧ (∃ bits, contending.link.rx = .frame bits none) ∧
        (onLine .idle 2000 (some 599) contending).link.tx = .sending ∧
        (onLine .idle 2000 (some 599) contending).link.rx = .idle ∧ 599 + 1 ≤ 600 ∧ ¬ 600 + 1 ≤ 600) ∧
      (let s : State := { hearing [true] with link := { (hearing [true]).link with pulse := some 249 } }
       s.link.rx ≠ .inactive ∧ s.link.pulse = some 249 ∧ 250 ≤ 249 + 1 ∧ ¬ 250 ≤ 248 + 1 ∧
         s.link.rx = .frame [true] none ∧ max 500 (20 * s.link.pulse.getD 0) = 4980) := by
  refine ⟨by decide, rfl, by decide, by decide, by decide, rfl, by decide, by decide, by decide, rfl, rfl,
    ⟨rfl, ⟨_, rfl⟩, rfl, rfl, by decide, by decide⟩, by decide +kernel⟩

/-- A bit of another's frame; a 0 over a driven 1 in the arbitration field; a 1 over a driven 0; and the same 0 over a 1 just
after the field. -/
theorem witness_BitsAreCollectedAndCompared :
    (hearing [true]).link.rx = .frame [true] none ∧ (hearing [true]).link.tx ≠ .sending ∧ 500 ≤ 500 ∧ 4999 < 5000 ∧
      contending.link.tx = .sending ∧ contending.link.ownBits[11]? = some true ∧ decide (2000 < 2000) = false ∧
      contending.link.ownBits[1]? = some false ∧
      (Frame.bits ⟨2, 0x18, 3, [0xFF]⟩)[16]? = some true ∧ ¬ 16 < 16 := by
  decide +kernel

theorem witness_DestinationsIncludeTheStation :
    (frameFor (.stop 15 0x81)).isRequest = true ∧
      destinationIncludes (byteAt (frameFor (.stop 15 0x81)).payload 0) 2 .left = false ∧
      (frameFor (.fault 6 ⟨5, false, 0, 0, 0, 0⟩)).isRequest = false ∧ (frameFor (.stop 15 0x81)).source ≠ 2 := by
  decide +kernel

/-- An element with small gates: the interface in samples 1 to 3, the flaw gate from the reference on. -/
def smallGates : ElementSection :=
  { element0 with
    iStart := 1, iEnd := 3, nominalDelay := 4, window := 30, aStart := 1, aEnd := 30, deadZone := 3, points := [⟨0, 100⟩],
    pointCount := 1, pathScale := 256 }

/-- A curve of three points, times at, between and beyond them; a trace whose first coupling sample is exactly at the
level and one whose greatest is one below; an echo that follows; and a gate B sample exactly at its level, one below it,
and an empty gate. -/
theorem witness_TracesGiveTheirShotResults :
    (let points := usedPoints element2
     points.Pairwise (fun p q => p.u < q.u) ∧ points = ⟨400, 120⟩ :: [⟨4000, 60⟩, ⟨7000, 40⟩] ∧
       points = [⟨400, 120⟩, ⟨4000, 60⟩] ++ [⟨7000, 40⟩] ∧
       points = [⟨400, 120⟩] ++ ⟨4000, 60⟩ :: ⟨7000, 40⟩ :: [] ∧ 4000 < 4001 ∧ 4001 < 7000) ∧
      (let trace : List Byte := [255, 89, 90, 91, 0, 0, 0, 120]
       (smallGates.iStart ≤ 2 ∧ 2 ≤ smallGates.iEnd ∧ smallGates.couplingLevel = (byteAt trace 2).toNat ∧
         (byteAt trace 1).toNat < smallGates.couplingLevel) ∧
       (workTrace smallGates 0 ⟨noElements, 0, 7, ⟨1, 2⟩, noElements⟩ trace).1.echoes[0]? =
         some ⟨4, 4, 120, false⟩) ∧
      (gateI smallGates (traceSamples 30 [255, 89, 89, 89])).found = false ∧
      (let c := { element0 with bStart := 0, bEnd := 0, nominalDelay := 1, window := 2, iStart := 5, iEnd := 5 }
       c.bEnable = 1 ∧ gateSamples (traceSamples 2 [0, 60]) (gateI c (traceSamples 2 [0, 60])).tRef 0 0 = [⟨0, 60⟩] ∧
         gateSamples (traceSamples 2 [0, 59]) (gateI c (traceSamples 2 [0, 59])).tRef 0 0 = [⟨0, 59⟩] ∧
         gateSamples (traceSamples 1 [0]) 1 0 0 = [] ∧ element2.bEnable ≠ 1) := by decide +kernel

/-- A chain at its full count and below it; an echo exactly at the window from two predictions and one outside every
window, with 47 chains open and with 48, in a CHAIN_FULL episode and before one. -/
theorem witness_EchoesFindTheirChains :
    (({ chain42 with count := 255 } : Chain).count ≤ 255 ∧ chain42.count ≤ 255 ∧ twoChains.chainsInOrder) ∧
      (let w := (running.elem 2).chainWindow
       (∃ o ∈ [⟨51, 100000⟩, ⟨54, 103000⟩], distance 101500 (Open.predicted o) ≤ w ∧
         distance 101500 (Open.predicted o) = 1500) ∧
       (∀ o ∈ [(⟨51, 100000⟩ : Open)], w < distance 101501 o.predicted)) ∧
      (let full : Nat → State := fun n => { queued 23 running with tracker := { running.tracker with
         chains := List.replicate n chain42 } }
       (full 47).tracker.chains.length < 48 ∧ 48 ≤ (full 48).tracker.chains.length ∧
         (full 48).control.episodes.chainFull = false ∧ (full 48).control.faults.overflow = false ∧
         (full 48).control.faults.records.length < 8 ∧ (full 48).hasRoomFor 1 ∧
         ({ running.control.episodes with chainFull := true } : Episodes).chainFull = true) := by
  unfold State.chainsInOrder State.hasRoomFor; decide +kernel

/-- Chain 42 at its minimum length and report level; one observation short; an enabled zone that holds its X; and losses of
exactly the back-wall minimum and of one millimetre less. -/
theorem witness_ClosedChainsAreJudged :
    (running.elem 2).minLength ≤ chain42.count ∧ (running.elem 2).reportLevel ≤ chain42.peak ∧
      ({ chain42 with count := 2 } : Chain).count < (running.elem 2).minLength ∧
      (∀ i, (running.judge.zones.get i).enabled = false) ∧ (zoneEntry 1252700 1252760).enabled = true ∧
      (zoneEntry 1252700 1252760).base ≤ 1252759 ∧ 1252759 ≤ (zoneEntry 1252700 1252760).limit ∧
      running.station.backWallMin ≤ min ((120 : Int) - 100).toNat 65535 ∧
      min ((119 : Int) - 100).toNat 65535 < running.station.backWallMin := by decide +kernel

/-- Key 0, with room and with a full transmit queue; a stored notice that matches (section 7.9); none that matches, with a
partner and without one. -/
theorem witness_OwnIndicationsTakeTheirOutcome :
    ({ indication17 with key := 0 } : Indication).key = 0 ∧ (queued 23 running).hasRoomFor 1 ∧
      24 ≤ (queued 24 running).link.txQueue.length ∧
      (noticeOf .left 0 .forward none).key = 0 ∧ indication17.key ≠ 0 ∧
      indication17.matched running.station (peerNotice 6 notice9 .backward 0) ∧
      withPartner.pair.notices = [] ∧
      (withPartner.hasPartner indication17.element = true ∧ running.hasPartner indication17.element = false) :=
  ⟨rfl, Nat.le_of_ble_eq_true rfl, by decide, rfl, by decide,
    ⟨rfl, rfl, by decide, .inl ⟨rfl, rfl⟩, by decide +kernel, Nat.le_of_ble_eq_true rfl⟩, rfl, by decide +kernel⟩

/-- Element 2 with one chain, three places left: its INDICATION, the FAULT and the GAP just fit. -/
theorem witness_DisablingAnElementClosesItsChains :
    (queued 21 listening).inRun ∧ (queued 21 listening).control.faults.overflow = false ∧
      (queued 21 listening).control.faults.records.length < 8 ∧
      (queued 21 listening).hasRoomFor
        (((queued 21 listening).tracker.chains.filter fun c => c.element == 2).length + 2) ∧
      (queued 21 listening).cover.accounting = .active := by
  refine ⟨rfl, rfl, by decide +kernel, ?_, rfl⟩
  unfold State.hasRoomFor; decide +kernel

/-- An advance that reaches the span end exactly, from the edge before it, with room and with a full transmit queue; one that
ends one micrometre before it; and an idle account. -/
theorem witness_SpansEndAtTheirLength :
    let s : State := { running with cover := { running.cover with lastTravel := 9999500 } }
    s.cover.accounting = .active ∧ s.hasRoomFor 1 ∧
      s.cover.lastTravel ≤ s.cover.spanStart + 1000000 * s.station.spanLength ∧
      s.cover.spanStart + 1000000 * s.station.spanLength ≤ 10000000 ∧
      9999999 < s.cover.spanStart + 1000000 * s.station.spanLength ∧ (station .ready).cover.accounting = .idle ∧
      24 ≤ (queued 24 s).link.txQueue.length :=
  ⟨rfl, Nat.le_of_ble_eq_true rfl, by decide +kernel, by decide +kernel, by decide +kernel, rfl, by decide⟩

/-- A coupled element whose bad run began at 2101250. -/
def badCover : ElementCover := { ElementCover.fresh with run := some ⟨2101250, 1252922⟩ }

/-- A bad run of element 0 that has lasted exactly U (Table 6-5, the shot at 2131250). -/
def badRun : State :=
  { running with cover := { running.cover with element := (Eight.all ElementCover.fresh).set 0 badCover } }

/-- An uncoupled element whose good run began at 2101250, its gap open since X 5. -/
def goodCover : ElementCover :=
  { ElementCover.fresh with
    coupling := .uncoupled, causes := { Causes.empty with uncoupled := true }, gapStart := some 5,
    run := some ⟨2101250, 1252922⟩ }

/-- Runs of exactly U and of one micrometre less; a bad run with and without a cause before it; a good run that leaves no
cause, and one that leaves LIFTED; elements with no run; and element 0 with an open loss record, and without one. -/
theorem witness_ShotsMoveTheCoverageAccount :
    let r : ShotResult := ⟨0, 2131250, ⟨1250602, 0⟩, false, [], some false⟩
    (badRun.cover.accounting = .active ∧ (badRun.cover.element.get r.element).coupling = .coupled ∧
      (badRun.cover.element.get r.element).run = some ⟨2101250, 1252922⟩ ∧ r.found = false ∧
      1000 * badRun.station.couplingRun ≤ r.travel - 2101250 ∧
      2131249 - 2101250 < 1000 * badRun.station.couplingRun ∧
      (badRun.cover.element.get r.element).causes.nonempty = false ∧ endingCover.causes.nonempty = true ∧
      r.backWall = some false ∧ ({ r with found := true } : ShotResult).found = true ∧
      (badRun.cover.element.get 0).backWall = .present ∧ (ending.cover.element.get 0).backWall = .lost 7 ∧
      badRun.hasRoomFor 1 ∧ 24 ≤ (queued 24 badRun).link.txQueue.length) ∧
      (goodCover.coupling = .uncoupled ∧ goodCover.run = some ⟨2101250, 1252922⟩ ∧ goodCover.causes.nonempty = true ∧
        ({ goodCover.causes with uncoupled := false } : Causes).nonempty = false ∧ goodCover.gapStart = some 5 ∧
        ({ goodCover.causes with uncoupled := false, lifted := true } : Causes).nonempty = true ∧
        ({ goodCover with run := none } : ElementCover).run = none ∧ ElementCover.fresh.run = none ∧
        ElementCover.fresh.coupling = .coupled) := by
  unfold State.hasRoomFor; decide +kernel

theorem witness_FramesReadBackAsTheirCommands :
    (Instr.unknownKind 6 0x3F [1, 2]).wellFormed = true ∧
      commandFrame (.unknownKind 6 0x3F [1, 2]) = some (frameFor (.unknownKind 6 0x3F [1, 2])) := by decide +kernel

theorem witness_BitsReadBackAsTheirFrame :
    lengthOk Kind.indication 15 = true ∧ lengthOk 0x3F 0 = true ∧ lengthOk 0x3F 15 = true := by decide +kernel

/-- The state after reset meets the invariants, and a step from it answers a next state. -/
theorem witness_StepKeeps :
    (State.reset.withinCapacity ∧ State.reset.chainsInOrder ∧ State.reset.gapsConsistent) ∧
      (State.reset.linkActiveOutsideStarting ∧ State.reset.atRestInStarting ∧ State.reset.link.txAgrees) ∧
      (State.reset.countersInRange ∧ State.reset.odometerInRange ∧ State.reset.sequenceInRange ∧
        State.reset.schedInRange) ∧
      ∃ t, step State.reset = .next t := by
  refine ⟨⟨?_, ?_, ?_⟩, ⟨?_, ?_, ?_⟩, ⟨?_, ?_, ?_, ?_⟩, State.reset, rfl⟩
  · unfold State.withinCapacity State.peersSound; decide
  · unfold State.chainsInOrder; decide
  · unfold State.gapsConsistent; decide
  · unfold State.linkActiveOutsideStarting; decide
  · intro _; exact ⟨rfl, rfl, rfl, rfl, rfl, rfl, rfl, rfl, rfl⟩
  · exact rfl
  · unfold State.countersInRange Outcomes.inRange Drops.inRange; decide
  · unfold State.odometerInRange FinePos.inRange; decide
  · unfold State.sequenceInRange; decide
  · unfold State.schedInRange; decide

theorem witness_SetupStandsUntilTheNextReset :
    startsPart .stillness = false ∧ ∃ t, exec .stillness running = .next t := ⟨rfl, _, rfl⟩

end Sys2Proof.Machine.Tests
end

section
/-! SUPPORT. The FAULT notice of a record read back (Table 10-9), the place of a best match in its list (R64, R117), and
the chain tracker's operations on an echo, one equation to a case (R64 to R68); then the theorem that settles O47. -/

namespace Sys2Proof.Machine

variable (s : State)

/-! ## The FAULT notice read back (Table 10-9) -/

/-- The two bytes of a 16-bit field, the first highest, make up the field (R176). -/
theorem bytes16_joined (v : BitVec 16) : v.extractLsb' 8 8 ++ v.extractLsb' 0 8 = v := by
  rw [BitVec.extractLsb'_append_extractLsb'_eq_extractLsb' (by decide)]
  simp

/-- The four bytes of a 32-bit field, the first highest, make up the field (R176). -/
theorem bytes32_joined (v : BitVec 32) :
    (v.extractLsb' 24 8 ++ v.extractLsb' 16 8) ++ (v.extractLsb' 8 8 ++ v.extractLsb' 0 8) = v := by
  rw [BitVec.extractLsb'_append_extractLsb'_eq_extractLsb' (by decide),
    BitVec.extractLsb'_append_extractLsb'_eq_extractLsb' (by decide),
    BitVec.extractLsb'_append_extractLsb'_eq_extractLsb' (by decide)]
  simp

@[simp] theorem faultPayload_length (f : FaultFields) : (faultPayload f).length = 9 := rfl

/-- The three fields of the first byte of a FAULT payload (Table 10-9). -/
theorem faultHead_fields : ∀ (kind : BitVec 3) (hasPosition : Bool) (arg : BitVec 4),
    (kind ++ flagBit hasPosition ++ arg).extractLsb' 5 3 = kind ∧
      (kind ++ flagBit hasPosition ++ arg).getLsbD 4 = hasPosition ∧
      (kind ++ flagBit hasPosition ++ arg).extractLsb' 0 4 = arg := by decide

@[simp] theorem decodeFault_faultPayload (f : FaultFields) : decodeFault (faultPayload f) = f := by
  obtain ⟨kind, hasPosition, arg, index, x, runNumber⟩ := f
  obtain ⟨hkind, hposition, harg⟩ := faultHead_fields kind hasPosition arg
  rw [decodeFault, FaultFields.mk.injEq]
  exact ⟨hkind, hposition, harg, bytes16_joined index, bytes32_joined x, bytes16_joined runNumber⟩

theorem faultNotice_reports (address : BitVec 4) (r : FaultRecord) : (faultNotice address r).reports address r := by
  simp [Frame.reports, faultNotice, frameOf, positionField]

/-! ## A fault reported with room for it (R148, R172) -/

/-- A report that finds room in the fault file and in the transmit queue: the record is filed and its notice queued. -/
theorem reportFault_fits (k : FaultKind) (a : BitVec 4) (h : s.control.faults.overflow = false)
    (file : s.control.faults.records.length < Config.faultCapacity) (queue : s.hasRoomFor 1) :
    s.reportFault k a = { s with
      link := s.link.queueing [faultNotice s.control.address (s.faultRecord k a)]
      control := { s.control with
        faults := { s.control.faults with records := s.control.faults.records ++ [s.faultRecord k a] } } } := by
  have room : s.link.txQueue.length < Config.txCapacity := queue
  rw [reportFault_room s k a h file, append_room]
  · rw [State.modLink, State.modControl_link, Link.push_eq, if_pos room]
    rfl
  · exact room

/-! ## The place of a best match (R64, R117) -/

/-- A best match is the head, or the best match of the rest and nearer than an acceptable head. -/
theorem bestMatch_cons_eq_some {α : Type} {ok : α → Bool} {dist : α → Nat} {x a : α} {rest : List α} {i : Nat}
    (h : bestMatch ok dist (x :: rest) = some (i, a)) :
    i = 0 ∨ ∃ j, i = j + 1 ∧ bestMatch ok dist rest = some (j, a) ∧ (ok x = true → dist a < dist x) := by
  unfold bestMatch at h
  split at h
  · split at h
    · simp_all
    · simp at h
  · next j b hs =>
    split at h
    · simp_all
    · next hx =>
      simp only [Option.some.injEq, Prod.mk.injEq] at h
      obtain ⟨rfl, rfl⟩ := h
      exact .inr ⟨j, rfl, hs, by simpa using hx⟩

/-- The acceptable items before a best match are farther: it is the earliest of the nearest. -/
theorem bestMatch_lt_of_mem_take {α : Type} {ok : α → Bool} {dist : α → Nat} {l : List α} {i : Nat} {a : α}
    (h : bestMatch ok dist l = some (i, a)) : ∀ b ∈ l.take i, ok b = true → dist a < dist b := by
  induction l generalizing i with
  | nil => simp [bestMatch] at h
  | cons x rest ih =>
    rcases bestMatch_cons_eq_some h with rfl | ⟨j, rfl, hrest, hx⟩
    · simp
    · simpa using ⟨hx, ih hrest⟩

theorem bestMatch_eq_none_iff {α : Type} {ok : α → Bool} {dist : α → Nat} {l : List α} :
    bestMatch ok dist l = none ↔ ∀ b ∈ l, ok b = false := by
  refine ⟨bestMatch_spec.bestMatch_none, fun none_ok => ?_⟩
  by_contra found
  obtain ⟨⟨i, a⟩, ha⟩ := Option.ne_none_iff_exists'.1 found
  obtain ⟨at_i, hok, -⟩ := bestMatch_spec ha
  simp [none_ok a (List.mem_of_getElem? at_i)] at hok

/-! ## An echo at the chain tracker (R64 to R68) -/

section
variable (r : ShotResult) (x : Echo)

theorem takeEcho_count {c : Chain} (h : c.count ≤ 255) :
    (takeEcho r x c).count = if c.count = 255 then 255 else c.count + 1 := by
  simp only [takeEcho]
  split <;> omega

/-- A strictly greater amplitude is the new peak (R65). -/
theorem takeEcho_peak_of_lt {c : Chain} (h : c.peak < x.amp) :
    (takeEcho r x c).peak = x.amp ∧ (takeEcho r x c).peakPath = x.path ∧ (takeEcho r x c).peakPos = r.pos := by
  simp [takeEcho, h]

/-- An equal or smaller amplitude leaves the peak (R65). -/
theorem takeEcho_peak_of_le {c : Chain} (h : x.amp ≤ c.peak) :
    (takeEcho r x c).peak = c.peak ∧ (takeEcho r x c).peakPath = c.peakPath ∧
      (takeEcho r x c).peakPos = c.peakPos := by
  simp [takeEcho, Nat.not_lt.2 h]

@[simp] theorem takeEcho_saturated (c : Chain) :
    (takeEcho r x c).saturated = (c.saturated || x.saturated) := rfl

/-- The chains considered stand in creation order when the table does. -/
theorem openFor_pairwise (h : s.chainsInOrder) : (s.openFor r).Pairwise fun a b => a.number < b.number := by
  obtain ⟨ordered, -⟩ := h
  exact List.pairwise_map.2 (ordered.filter _)

theorem startChain_room (h : s.tracker.chains.length < Config.chainCapacity) :
    s.startChain r x = s.modTracker fun t =>
      { t with chains := t.chains ++ [newChain t.nextNumber r x], nextNumber := t.nextNumber + 1 } := by
  simp [State.startChain, h]

/-- A drop in a CHAIN_FULL episode is counted and no more (R67, R68). -/
theorem startChain_full_marked (full : Config.chainCapacity ≤ s.tracker.chains.length)
    (marked : s.control.episodes.chainFull = true) :
    s.startChain r x = s.modTracker fun t => { t with dropped := bump t.dropped } := by
  simp [State.startChain, Nat.not_lt.2 full, State.reportChainFull, marked]

/-- A drop outside a CHAIN_FULL episode is counted, begins one, and is reported with its element (R67, R68). -/
theorem startChain_full_clear (full : Config.chainCapacity ≤ s.tracker.chains.length)
    (clear : s.control.episodes.chainFull = false) :
    s.startChain r x = ((s.modTracker fun t => { t with dropped := bump t.dropped }).markChainFull true).reportFault
      .chainFull (BitVec.ofNat 4 r.element.val) := by
  simp [State.startChain, Nat.not_lt.2 full, State.reportChainFull, clear]

/-- The unclaimed chains that are no candidates leave the echo without a chain (R64). -/
theorem assignEcho_of_far {unclaimed : List Open}
    (far : ∀ o ∈ unclaimed, (s.elem r.element).chainWindow < distance x.path o.predicted) :
    s.assignEcho r x unclaimed = (unclaimed, s.startChain r x) := by
  have no_match := bestMatch_eq_none_iff (dist := fun o : Open => distance x.path o.predicted)
    (ok := fun o => distance x.path o.predicted ≤ (s.elem r.element).chainWindow) |>.2
    fun o ho => decide_eq_false (Nat.not_le.2 (far o ho))
  simp [State.assignEcho, no_match]

/-- A candidate among the unclaimed chains: the nearest takes the echo, the earliest in the list among equals, and
leaves the list (R64). -/
theorem assignEcho_of_near {unclaimed : List Open}
    (near : ∃ o ∈ unclaimed, distance x.path o.predicted ≤ (s.elem r.element).chainWindow) :
    ∃ before best after, unclaimed = before ++ best :: after ∧
      distance x.path best.predicted ≤ (s.elem r.element).chainWindow ∧
      (∀ o ∈ before, distance x.path best.predicted < distance x.path o.predicted) ∧
      (∀ o ∈ after, distance x.path best.predicted ≤ distance x.path o.predicted) ∧
      s.assignEcho r x unclaimed = (before ++ after, s.modTracker fun t =>
        { t with chains := t.chains.map fun c => if c.number = best.number then takeEcho r x c else c }) := by
  generalize hw : (s.elem r.element).chainWindow = w at near
  cases found : bestMatch (fun o : Open => distance x.path o.predicted ≤ w)
      (fun o => distance x.path o.predicted) unclaimed with
  | none =>
    obtain ⟨o, ho, hnear⟩ := near
    simpa [hnear] using bestMatch_eq_none_iff.1 found o ho
  | some found_at =>
    obtain ⟨i, best⟩ := found_at
    obtain ⟨at_i, best_near, nearest⟩ := bestMatch_spec found
    have farther := bestMatch_lt_of_mem_take found
    simp only [decide_eq_true_eq] at best_near nearest farther
    obtain ⟨hi, rfl⟩ := List.getElem?_eq_some_iff.1 at_i
    refine ⟨unclaimed.take i, unclaimed[i], unclaimed.drop (i + 1), by simp, best_near, ?_, ?_, ?_⟩
    · intro o ho
      by_cases candidate : distance x.path o.predicted ≤ w
      · exact farther o ho candidate
      · omega
    · intro o ho
      by_cases candidate : distance x.path o.predicted ≤ w
      · exact nearest o (List.mem_of_mem_drop ho) candidate
      · omega
    · simp [State.assignEcho, hw, found, List.eraseIdx_eq_take_drop_succ]
end

/-- Settles O47, from the equations of `takeEcho`, `assignEcho` and `startChain` for each case of R64 to R68. -/
theorem echoesFindTheirChains : Obligations.EchoesFindTheirChains := by
  unfold Obligations.EchoesFindTheirChains
  refine ⟨fun r x c counted => ?_, fun r s => ⟨rfl, openFor_pairwise s r, rfl⟩, fun r x unclaimed s => ⟨?_, ?_⟩⟩
  · refine ⟨rfl, rfl, rfl, takeEcho_count r x counted, takeEcho_peak_of_lt r x, takeEcho_peak_of_le r x, ?_, ?_, rfl,
      rfl⟩
    · rintro (h | h) <;> simp [h]
    · intro hx hc
      simp [hx, hc]
  · exact assignEcho_of_near s r x
  · intro far
    rw [assignEcho_of_far s r x far]
    refine ⟨fun room => by rw [startChain_room s r x room]; rfl, fun full => ⟨fun marked => ?_, ?_⟩⟩
    · rw [startChain_full_marked s r x full marked]
      rfl
    · intro clear file room queue
      refine ⟨_, faultNotice_reports s.control.address _, ?_⟩
      rw [startChain_full_clear s r x full clear, reportFault_fits]
      · rfl
      · exact file
      · exact room
      · exact queue

end Sys2Proof.Machine
end

section
/-! SUPPORT. The rows of Table 8-5, the destination test and the good frame at the receive queue, one equation to a case
(R150, R151); then the theorem that settles O45. -/

namespace Sys2Proof.Machine

/-! ## The request kinds of Table 8-5 -/

/-- No two rows of Table 8-5 share a code, so each is found by its own. -/
theorem kindRow_code_of_mem : ∀ r ∈ kindTable, kindRow r.code = some r := by decide

theorem kindRow_eq_some_iff {code : BitVec 6} {r : KindRow} :
    kindRow code = some r ↔ r ∈ kindTable ∧ r.code = code := by
  constructor
  · intro found
    exact ⟨List.mem_of_find?_eq_some found, by simpa using List.find?_some found⟩
  · rintro ⟨row, rfl⟩
    exact kindRow_code_of_mem r row

theorem Frame.isRequest_iff_row (f : Frame) :
    f.isRequest = true ↔ ∃ r ∈ kindTable, f.kind = r.code ∧ r.request = true := by
  rw [Frame.isRequest, Option.getD_eq_iff]
  simp [kindRow_eq_some_iff, and_assoc, eq_comm (a := f.kind)]

/-- The requests are the first seven rows of Table 8-5; a notice and an unknown kind are none. -/
theorem Frame.isRequest_iff_kind (f : Frame) :
    f.isRequest = true ↔
      f.kind = Kind.halt ∨ f.kind = Kind.stop ∨ f.kind = Kind.run ∨ f.kind = Kind.zone ∨ f.kind = Kind.flush ∨
        f.kind = Kind.clear ∨ f.kind = Kind.query := by
  rw [Frame.isRequest_iff_row]
  simp [kindTable]

/-! ## The destination test (R151) -/

theorem destinationIncludes_iff (dest : Byte) (address : BitVec 4) (rail : Rail) :
    destinationIncludes dest address rail = true ↔
      dest.toNat = address.toNat ∨ (dest.toNat = 0x80 ∧ rail = .left) ∨ (dest.toNat = 0x81 ∧ rail = .right) ∨
        dest.toNat = 0xFF := by
  have own : dest = address.setWidth 8 ↔ dest.toNat = address.toNat := by
    rw [BitVec.toNat_eq, BitVec.toNat_setWidth_of_le (by decide)]
  have code (c : Byte) : dest = c ↔ dest.toNat = c.toNat := BitVec.toNat_eq
  simp [destinationIncludes, own, code, or_assoc]

/-- An address has four bits, so the codes 16 to 127 and 0x82 to 0xFE are no station's, no rail's and not 0xFF. -/
theorem destinationIncludes_eq_false {dest : Byte} (address : BitVec 4) (rail : Rail)
    (unused : 16 ≤ dest.toNat ∧ dest.toNat ≤ 127 ∨ 0x82 ≤ dest.toNat ∧ dest.toNat ≤ 0xFE) :
    destinationIncludes dest address rail = false := by
  have small : address.toNat < 16 := address.isLt
  rw [← Bool.not_eq_true, destinationIncludes_iff]
  omega

/-! ## A good frame at the receive queue (R150, R151) -/

section
variable {f : Frame} {s : State}

theorem notForUs_of_notRequest (notice : f.isRequest = false) : s.notForUs f = false := by
  simp [State.notForUs, notice]

theorem notForUs_of_request (request : f.isRequest = true) :
    s.notForUs f = !destinationIncludes (byteAt f.payload 0) s.control.address s.control.rail := by
  simp [State.notForUs, request]

theorem acceptGood_other (foreign : f.source ≠ s.control.address) (other : s.notForUs f = true) :
    s.acceptGood f = s.count Outcomes.countReceived := by
  simp [State.acceptGood, foreign, other]

theorem acceptGood_ours (foreign : f.source ≠ s.control.address) (ours : s.notForUs f = false) :
    s.acceptGood f = (s.count Outcomes.countReceived).enterQueue f := by
  simp [State.acceptGood, foreign, ours]
end

/-- Settles O45, from the destination test on numbers, the two outcomes of a good frame and the request kinds. -/
theorem destinationsIncludeTheStation : Obligations.DestinationsIncludeTheStation := by
  unfold Obligations.DestinationsIncludeTheStation
  intro address rail
  refine ⟨fun dest => destinationIncludes_iff dest address rail,
    fun dest unused => destinationIncludes_eq_false address rail unused, ?_, Frame.isRequest_iff_kind⟩
  rintro f s rfl rfl foreign
  constructor
  · intro request excluded
    exact acceptGood_other foreign (by rw [notForUs_of_request request, excluded]; rfl)
  · intro notice
    exact acceptGood_ours foreign (notForUs_of_notRequest notice)

end Sys2Proof.Machine
end

section
/-! SUPPORT. What a command can do at all, as a sequence of elementary changes of one block each, every one with the
bounds it keeps: said once for every command that does not start the part, and for a tick of the clock. The statements
about what every step keeps follow from these changes one by one. -/

namespace Sys2Proof.Machine

/-! ## The elementary changes -/

/-- A new chain table, by the old one: chains leave or take echoes, keeping their numbers and their order, and the
numbering goes on, or starts anew with no chain left; the counts stay below their top. -/
structure Tracker.Keeps (a b : Tracker) : Prop where
  numbers : (b.chains.map (·.number)).Sublist (a.chains.map (·.number))
  next : b.nextNumber = a.nextNumber ∨ b.chains = []
  discarded : b.discarded ≤ max a.discarded Config.counterMax
  dropped : b.dropped ≤ max a.dropped Config.counterMax

/-- A change at the judge: the counts stay below their top, the sequence number in its range; command `c` writes a zone
only when it is a ZONE request. -/
structure Judge.Keeps (c : Instr) (a b : Judge) : Prop where
  rejected : b.rejected ≤ max a.rejected Config.counterMax
  suppressed : b.suppressed ≤ max a.suppressed Config.counterMax
  excess : b.excess ≤ max a.excess Config.counterMax
  sequence : b.nextSeq = a.nextSeq ∨ (1 ≤ b.nextSeq ∧ b.nextSeq ≤ 65535)
  zones : b.zones = a.zones ∨ ∃ src dest index base limit, c = .zone src dest index base limit

/-- A gap start present exactly while a cause stands (R102 to R104). -/
def ElementCover.consistent (c : ElementCover) : Prop := c.gapStart.isSome = c.causes.nonempty

/-- A change at the pairing unit that meets no new peer: the lists stay within their capacities and the peers keep their
addresses. -/
structure Pairing.Keeps (a b : Pairing) : Prop where
  peers : b.peers.map (·.address) = a.peers.map (·.address)
  notices : b.notices.length ≤ max a.notices.length Config.peerNoticeCapacity
  own : b.own.length ≤ max a.own.length Config.ownCapacity
  lost : b.lost ≤ max a.lost Config.counterMax

/-- A change at the link that queues nothing and counts nothing: frames may leave the queues, the receiver does not
become INACTIVE, and the transmitter goes on agreeing with its queue. -/
structure Link.Keeps (a b : Link) : Prop where
  txQueue : b.txQueue.Sublist a.txQueue
  rxQueue : b.rxQueue.Sublist a.rxQueue
  rx : b.rx = .inactive → a.rx = .inactive
  tx : a.txAgrees → b.txAgrees
  counts : b.counts = a.counts
  drops : b.drops = a.drops

/-- A change at station control outside reset and load: the setup stands, the station does not go to STARTING, the fault
file stays within its bounds, and the run number changes at a RUN only. -/
structure Control.Keeps (c : Instr) (a b : Control) : Prop where
  address : b.address = a.address
  rail : b.rail = a.rail
  cause : b.cause = a.cause
  config : b.config = a.config
  configuredMask : b.configuredMask = a.configuredMask
  faultOffset : b.faultOffset = a.faultOffset
  imageId : b.imageId = a.imageId
  state : b.state = .starting → a.state = .starting
  records : b.faults.records.length ≤ max a.faults.records.length Config.faultCapacity
  firstIndex : b.faults.firstIndex ≤ max a.faults.firstIndex Config.counterMax
  runNumber : b.runNumber = a.runNumber ∨ ∃ src dest n start, c = .run src dest n start

/-- One elementary change on behalf of command `c`: one block at a time, but that a new peer's entry is made as its frame
is dispatched. -/
inductive Change (c : Instr) : State → State → Prop where
  | free (s : State) (n : Nat) : Change c s { s with free := n }
  | pins (s : State) (p : Pins) : Change c s { s with pins := p }
  | odo (s : State) (f : Odometer → Odometer) (pos : s.odo.pos.inRange → (f s.odo).pos.inRange)
      (travel : s.odo.travel ≤ Config.travelMax → (f s.odo).travel ≤ Config.travelMax) : Change c s (s.modOdo f)
  | sched (s : State) (f : Scheduler → Scheduler)
      (skip : ∀ e, ((f s.sched).element.get e).skipCount ≤ max (s.sched.element.get e).skipCount 255)
      (grid : ∀ e, ((f s.sched).element.get e).onGrid ≤ max (s.sched.element.get e).onGrid 8) : Change c s (s.modSched f)
  | pulser (s : State) (f : Pulser → Pulser)
      (bad : ∀ e, (f s.pulser).badFires.get e ≤ max (s.pulser.badFires.get e) 3) : Change c s (s.modPulser f)
  | tracker (s : State) (f : Tracker → Tracker) (h : s.tracker.Keeps (f s.tracker)) : Change c s (s.modTracker f)
  | newChain (s : State) (ch : Chain) (room : s.tracker.chains.length < Config.chainCapacity)
      (number : ch.number = s.tracker.nextNumber) :
      Change c s (s.modTracker fun t => { t with chains := t.chains ++ [ch], nextNumber := t.nextNumber + 1 })
  | judge (s : State) (f : Judge → Judge) (h : s.judge.Keeps c (f s.judge)) : Change c s (s.modJudge f)
  | cover (s : State) (f : Coverage → Coverage)
      (h : ∀ e, (s.cover.element.get e).consistent → ((f s.cover).element.get e).consistent) : Change c s (s.modCover f)
  | pair (s : State) (f : Pairing → Pairing) (h : s.pair.Keeps (f s.pair)) : Change c s (s.modPair f)
  | meet (s : State) (f : Frame) (entry : Peer) (keep : PeerNotice → Bool) (waits : f ∈ s.link.rxQueue)
      (source : entry.address = f.source) (new : f.source ∉ s.pair.peers.map (·.address)) :
      Change c s ((s.takeHead f.source).modPair fun p =>
        { p with peers := p.peers ++ [entry], notices := p.notices.filter keep })
  | push (s : State) (f : Frame) : Change c s (s.modLink (Link.push f))
  | count (s : State) (f : Outcomes → Outcomes) (h : s.link.counts.inRange → (f s.link.counts).inRange) :
      Change c s (s.count f)
  | receive (s : State) (f : Frame) (room : s.link.rxQueue.length < Config.rxCapacity)
      (other : f.source ≠ s.control.address) : Change c s (s.modLink fun l => { l with rxQueue := l.rxQueue ++ [f] })
  | link (s : State) (f : Link → Link) (h : s.link.Keeps (f s.link)) : Change c s (s.modLink f)
  | control (s : State) (f : Control → Control) (h : s.control.Keeps c (f s.control)) : Change c s (s.modControl f)

/-- Elementary changes one after another. -/
abbrev Changes (c : Instr) : State → State → Prop := Relation.ReflTransGen (Change c)

variable {c : Instr}

theorem Change.changes {s t : State} (h : Change c s t) : Changes c s t := .single h
theorem Changes.refl (s : State) : Changes c s s := Relation.ReflTransGen.refl

/-- A fold of operations that each are elementary changes is one. -/
theorem Changes.foldl {α : Type} (f : State → α → State) (h : ∀ s a, Changes c s (f s a)) (l : List α) (s : State) :
    Changes c s (l.foldl f s) := by
  induction l generalizing s with
  | nil => exact Changes.refl s
  | cons a l ih => exact (h s a).trans (ih (f s a))

theorem acts_changes (acts : List (State → State)) (h : ∀ act ∈ acts, ∀ t, Changes c t (act t)) (s : State) :
    Changes c s (acts.foldl (fun t act => act t) s) := by
  induction acts generalizing s with
  | nil => exact Changes.refl s
  | cons a l ih => exact (h a (by simp) s).trans (ih (fun b hb => h b (by simp [hb])) _)

theorem inFreeOrder_changes (s : State) (ord : Nat → Nat → Nat) (lanes : List (List Act))
    (h : ∀ l ∈ lanes, ∀ act ∈ l, ∀ t, Changes c t (act.2 t)) : Changes c s (s.inFreeOrder ord lanes) := by
  obtain ⟨acts, merged, run⟩ := inFreeOrder_merges s ord lanes
  rw [run]
  refine (Change.free s _).changes.trans (acts_changes acts (fun act mem => ?_) _)
  obtain ⟨x, hx, rfl⟩ := List.mem_map.1 (merged.perm.mem_iff.1 mem)
  obtain ⟨l, hl, hxl⟩ := List.mem_flatten.1 hx
  exact h l hl x hxl

/-! ## Queueing and faults -/

variable (s : State)

/-- A change of the marks alone. -/
theorem Control.Keeps.of_marks {a b : Control}
    (h : b = { a with enableMask := b.enableMask, runEndPending := b.runEndPending, episodes := b.episodes,
                      liftFromStill := b.liftFromStill }) : a.Keeps c b := by
  rw [h]
  constructor <;> simp

/-- A change of the marks and of the station state, to one that is not STARTING. -/
theorem Control.Keeps.of_state {a b : Control} (st : b.state ≠ .starting)
    (h : b = { a with state := b.state, enableMask := b.enableMask, runEndPending := b.runEndPending,
                      episodes := b.episodes, liftFromStill := b.liftFromStill }) : a.Keeps c b := by
  rw [h]
  constructor <;> simp [st]

theorem markChainFull_changes (b : Bool) : Changes c s (s.markChainFull b) :=
  (Change.control s _ (.of_marks rfl)).changes
theorem markTxqFull_changes (b : Bool) : Changes c s (s.markTxqFull b) := (Change.control s _ (.of_marks rfl)).changes
theorem markRxqOverrun_changes (b : Bool) : Changes c s (s.markRxqOverrun b) :=
  (Change.control s _ (.of_marks rfl)).changes

theorem push_changes (f : Frame) : Changes c s (s.modLink (Link.push f)) := (Change.push s f).changes

theorem fileFault_changes (k : FaultKind) (a : BitVec 4) : Changes c s (s.fileFault k a) := by
  unfold State.fileFault
  split
  · exact Changes.refl s
  · split
    · next room =>
      refine (Change.control s _ ?_).changes
      constructor <;> simp
      omega
    · refine (Change.control s _ ?_).changes
      constructor <;> simp

theorem beginTxqFull_changes : Changes c s s.beginTxqFull := by
  have filed : Changes c s ((s.markTxqFull true).fileFault .txqFull 0) :=
    (markTxqFull_changes s true).trans (fileFault_changes _ _ _)
  unfold State.beginTxqFull
  dsimp only
  split
  · exact filed.trans (push_changes _ _)
  · exact filed

theorem append_changes (f : Frame) : Changes c s (s.append f) := by
  unfold State.append
  dsimp only
  split
  · exact push_changes s f
  · split
    · exact push_changes s f
    · exact (push_changes s f).trans (beginTxqFull_changes _)

theorem appendAll_changes (fs : List Frame) : Changes c s (s.appendAll fs) :=
  Changes.foldl _ (fun t f => append_changes t f) fs s

theorem queueStatus_changes (p : Byte) : Changes c s (s.queueStatus p) := append_changes s _
theorem queueAnnounce_changes (b : Bool) : Changes c s (s.queueAnnounce b) := append_changes s _

theorem reportFault_changes (k : FaultKind) (a : BitVec 4) : Changes c s (s.reportFault k a) := by
  unfold State.reportFault
  dsimp only
  split
  · exact (fileFault_changes s k a).trans (append_changes _ _)
  · exact fileFault_changes s k a

theorem reportChainFull_changes (e : Element) : Changes c s (s.reportChainFull e) := by
  unfold State.reportChainFull
  split
  · exact Changes.refl s
  · exact (markChainFull_changes s true).trans (reportFault_changes _ _ _)

theorem reportRxqOverrun_changes : Changes c s s.reportRxqOverrun := by
  unfold State.reportRxqOverrun
  split
  · exact Changes.refl s
  · exact (markRxqOverrun_changes s true).trans (reportFault_changes _ _ _)

theorem popHead_changes : Changes c s s.popHead := by
  have popped : Changes c s (s.modLink fun l =>
      { l with txQueue := s.link.txQueue.tail, tx := if s.link.txQueue.tail.isEmpty then .idle else .waiting }) := by
    refine (Change.link s _ ⟨List.tail_sublist _, List.Sublist.refl _, id, fun _ => ?_, rfl, rfl⟩).changes
    cases h : s.link.txQueue.tail <;> simp [Link.txAgrees]
  unfold State.popHead
  dsimp only
  split
  · exact popped.trans (markTxqFull_changes _ false)
  · exact popped

/-- Each of the ten outcome counters is counted within its range. -/
theorem count_changes {f : Outcomes → Outcomes} (mem : f ∈ [Outcomes.countSent, Outcomes.countLost,
    Outcomes.countTxError, Outcomes.countAborted, Outcomes.countReceived, Outcomes.countRxCrc, Outcomes.countRxForm,
    Outcomes.countOverrun, Outcomes.countUnknown, Outcomes.countNoise]) : Changes c s (s.count f) := by
  refine (Change.count s f fun h => ?_).changes
  simp only [Outcomes.inRange] at h ⊢
  have top := bump_le
  simp only [List.mem_cons, List.not_mem_nil, or_false] at mem
  rcases mem with rfl | rfl | rfl | rfl | rfl | rfl | rfl | rfl | rfl | rfl <;> simp_all [Outcomes.countSent,
    Outcomes.countLost, Outcomes.countTxError, Outcomes.countAborted, Outcomes.countReceived, Outcomes.countRxCrc,
    Outcomes.countRxForm, Outcomes.countOverrun, Outcomes.countUnknown, Outcomes.countNoise]

/-! ## Pairing unit and judge -/

theorem enterOwn_length (e : OwnEntry) (l : List OwnEntry) :
    (enterOwn e l).length ≤ max l.length Config.ownCapacity := by
  have kept := List.length_filter_le (fun o => o.indication.sequence != e.indication.sequence) l
  unfold enterOwn
  dsimp only
  split <;> simp [Config.ownCapacity] at * <;> omega

theorem pairOwn_changes (i : Indication) : Changes c s (s.pairOwn i) := by
  unfold State.pairOwn
  split
  · exact append_changes s _
  · split
    · refine (Change.pair s _ ⟨rfl, ?_, Nat.le_max_left _ _, Nat.le_max_left _ _⟩).changes.trans (append_changes _ _)
      exact (List.length_eraseIdx_le _ _).trans (Nat.le_max_left _ _)
    · exact (Change.pair s _ ⟨rfl, Nat.le_max_left _ _, enterOwn_length _ _, Nat.le_max_left _ _⟩).changes.trans
        (append_changes _ _)

theorem shown_changes (src : BitVec 4) : Changes c s (s.shown src) := by
  refine (Change.pair s _ ⟨?_, Nat.le_max_left _ _, Nat.le_max_left _ _, Nat.le_max_left _ _⟩).changes
  rw [List.map_map]
  refine List.map_congr_left fun q _ => ?_
  simp only [Function.comp_apply]
  split <;> rfl

theorem silencePeers_addresses (travel silence : Nat) (l : List Peer) :
    (silencePeers travel silence l).map (·.address) = l.map (·.address) := by
  unfold silencePeers
  rw [List.map_map]
  refine List.map_congr_left fun q _ => ?_
  simp only [Function.comp_apply]
  split <;> rfl

theorem pairAdvance_changes (t : Nat) : Changes c s (s.pairAdvance t) := by
  unfold State.pairAdvance
  refine (Change.pair s _ ?_).changes
  dsimp only
  split
  · exact ⟨silencePeers_addresses _ _ _, (List.length_filter_le _ _).trans (Nat.le_max_left _ _),
      (List.length_filter_le _ _).trans (Nat.le_max_left _ _), (sat16_le _).trans (Nat.le_max_right _ _)⟩
  · exact ⟨silencePeers_addresses _ _ _, Nat.le_max_left _ _, Nat.le_max_left _ _, Nat.le_max_left _ _⟩

theorem nextSequence_range (n : Nat) : 1 ≤ nextSequence n ∧ nextSequence n ≤ 65535 := by
  unfold nextSequence
  split <;> omega

theorem bump_le_max (a b : Nat) : bump a ≤ max b Config.counterMax := (bump_le a).trans (Nat.le_max_right _ _)

theorem numberIndication_changes (e : Element) (x : Int) (b : Body) : Changes c s (s.numberIndication e x b) := by
  unfold State.numberIndication
  split
  · refine (Change.judge s _ ?_).changes
    constructor <;> simp [bump_le]
  · refine (Change.judge s _ ?_).changes.trans (pairOwn_changes _ _)
    constructor <;> simp [nextSequence_range]

theorem judgeChain_changes (ch : Chain) : Changes c s (s.judgeChain ch) := by
  unfold State.judgeChain
  dsimp only
  split
  · exact numberIndication_changes s _ _ _
  · refine (Change.judge s _ ?_).changes
    constructor <;> simp [bump_le]

theorem judgeLoss_changes (e : Element) (a b : Int) : Changes c s (s.judgeLoss e a b) := by
  unfold State.judgeLoss
  dsimp only
  split
  · exact numberIndication_changes s _ _ _
  · exact Changes.refl s

/-! ## Chain tracker -/

/-- A change of the chain table alone, to one with a part of its numbers. -/
theorem chains_changes (f : List Chain → List Chain)
    (h : ((f s.tracker.chains).map (·.number)).Sublist (s.tracker.chains.map (·.number))) :
    Changes c s (s.modTracker fun t => { t with chains := f t.chains }) :=
  (Change.tracker s _ ⟨h, .inl rfl, Nat.le_max_left _ _, Nat.le_max_left _ _⟩).changes

theorem closeChains_changes (pick : Chain → Bool) : Changes c s (s.closeChains pick) := by
  unfold State.closeChains
  refine (chains_changes s (fun l => l.filter fun ch => !pick ch) (List.filter_sublist.map _)).trans ?_
  exact Changes.foldl _ (fun t ch => (markChainFull_changes t false).trans (judgeChain_changes _ ch)) _ _

theorem closeNext_changes (pick : Chain → Bool) : Changes c s (s.closeNext pick) := by
  unfold State.closeNext
  split
  · exact ((chains_changes s (fun l => l.eraseP pick) ((List.eraseP_sublist ..).map _)).trans
      (markChainFull_changes _ false)).trans (judgeChain_changes _ _)
  · exact Changes.refl s

theorem setInFlight_changes (m : Option ElementSet) : Changes c s (s.setInFlight m) :=
  (Change.tracker s _ ⟨List.Sublist.refl _, .inl rfl, Nat.le_max_left _ _, Nat.le_max_left _ _⟩).changes

theorem trackAdvance_changes (t : Nat) (r : Bool) : ∀ act ∈ s.trackAdvance t r, ∀ u, Changes c u (act.2 u) := by
  intro act ha u
  rw [List.eq_of_mem_replicate ha]
  exact closeNext_changes u _

theorem trackFire_changes (m : ElementSet) (t : Nat) : ∀ act ∈ s.trackFire m t, ∀ u, Changes c u (act.2 u) := by
  intro act ha u
  rcases List.mem_append.1 ha with h | h
  · rw [List.eq_of_mem_replicate h]
    exact closeNext_changes u _
  · rw [List.mem_singleton.1 h]
    exact setInFlight_changes u _

theorem trackDisable_changes (e : Element) : ∀ act ∈ s.trackDisable e, ∀ u, Changes c u (act.2 u) := by
  intro act ha u
  rw [List.eq_of_mem_replicate ha]
  exact closeNext_changes u _

theorem trackHalt_changes : Changes c s s.trackHalt := by
  have emptied (n : Nat) : Changes c s
      (s.modTracker fun t => { t with chains := [], inFlight := none, discarded := sat16 (t.discarded + n) }) :=
    (Change.tracker s _ (by exact ⟨List.nil_sublist _, .inl rfl, (sat16_le _).trans (Nat.le_max_right _ _),
      Nat.le_max_left _ _⟩)).changes
  unfold State.trackHalt
  dsimp only
  split
  · exact emptied _
  · exact (emptied _).trans (markChainFull_changes _ _)

theorem trackRunStart_changes : Changes c s s.trackRunStart :=
  (Change.tracker s _ (by exact ⟨List.nil_sublist _, .inr rfl, Nat.le_max_left _ _, Nat.le_max_left _ _⟩)).changes.trans
    (markChainFull_changes _ _)

theorem startChain_changes (r : ShotResult) (x : Echo) : Changes c s (s.startChain r x) := by
  unfold State.startChain
  split
  · next room => exact (Change.newChain s _ room rfl).changes
  · exact (Change.tracker s _ ⟨List.Sublist.refl _, .inl rfl, Nat.le_max_left _ _, bump_le_max _ _⟩).changes.trans
      (reportChainFull_changes _ _)

/-- A chain that takes an echo keeps its number. -/
theorem takeEcho_numbers (r : ShotResult) (x : Echo) (n : Nat) (l : List Chain) :
    (l.map fun ch => if ch.number = n then takeEcho r x ch else ch).map (·.number) = l.map (·.number) := by
  rw [List.map_map]
  refine List.map_congr_left fun ch _ => ?_
  simp only [Function.comp_apply]
  split <;> rfl

theorem assignEcho_changes (r : ShotResult) (x : Echo) (o : List Open) : Changes c s (s.assignEcho r x o).2 := by
  unfold State.assignEcho
  split
  · exact chains_changes s _ (by rw [takeEcho_numbers])
  · exact startChain_changes s r x

theorem assignResult_changes (r : ShotResult) : Changes c s (s.assignResult r) := by
  have echoes (xs : List Echo) : ∀ acc : List Open × State, Changes c acc.2
      (xs.foldl (fun (acc : List Open × State) x => acc.2.assignEcho r x acc.1) acc).2 := by
    induction xs with
    | nil => exact fun acc => Changes.refl _
    | cons x xs ih => exact fun acc => (assignEcho_changes acc.2 r x acc.1).trans (ih _)
  exact echoes r.echoes (s.openFor r, s)

theorem trackListeningEnd_changes (m : ElementSet) (rs : List ShotResult) :
    ∀ act ∈ s.trackListeningEnd m rs, ∀ u, Changes c u (act.2 u) := by
  intro act ha u
  rcases List.mem_append.1 ha with h | h
  · rcases List.mem_append.1 h with h | h
    · obtain ⟨r, -, rfl⟩ := List.mem_map.1 h
      exact assignResult_changes u r
    · rw [List.mem_singleton.1 h]
      exact setInFlight_changes u _
  · rw [List.eq_of_mem_replicate h]
    exact closeNext_changes u _

/-! ## Coverage monitor -/

theorem applyRequest_consistent (q : CauseRequest) {d : ElementCover} (h : d.consistent) :
    (applyRequest q d).consistent := by
  simp only [ElementCover.consistent, applyRequest] at h ⊢
  split <;> split <;> simp_all

/-- One element's account changed, its gap start left in agreement with its causes. -/
theorem modElementCover_changes (e : Element) (f : ElementCover → ElementCover)
    (h : ∀ d, d.consistent → (f d).consistent) : Changes c s (s.modElementCover e f) := by
  refine (Change.cover s _ fun i hi => ?_).changes
  simp only [Eight.get_set]
  split
  · next same => exact h _ (same ▸ hi)
  · exact hi

/-- One element's account changed beside its gap. -/
theorem modElementCover_aside (e : Element) (f : ElementCover → ElementCover)
    (causes : ∀ d, (f d).causes = d.causes := by exact fun _ => rfl)
    (gapStart : ∀ d, (f d).gapStart = d.gapStart := by exact fun _ => rfl) : Changes c s (s.modElementCover e f) :=
  modElementCover_changes s e f fun d h => by rwa [ElementCover.consistent, causes, gapStart]

theorem applyRequests_changes (qs : List CauseRequest) : Changes c s (s.applyRequests qs) :=
  Changes.foldl _ (fun t q => modElementCover_changes t _ _ fun _ => applyRequest_consistent q) qs s

theorem causeActs_changes (qs : List CauseRequest) : ∀ act ∈ s.causeActs qs, ∀ u, Changes c u (act u) := by
  intro act ha u
  unfold State.causeActs at ha
  split at ha
  · rcases List.mem_cons.1 ha with rfl | ha
    · exact applyRequests_changes u qs
    · obtain ⟨g, -, rfl⟩ := List.mem_map.1 ha
      exact append_changes u _
  · simp at ha

theorem requestCauses_changes (qs : List CauseRequest) : Changes c s (s.requestCauses qs) :=
  acts_changes _ (causeActs_changes s qs) s

theorem coupledShot_changes (r : ShotResult) : Changes c s (s.coupledShot r) := by
  unfold State.coupledShot
  dsimp only
  split
  · exact modElementCover_aside s _ _
  · split
    · exact modElementCover_aside s _ _
    · split
      · exact (modElementCover_aside s _ _).trans (requestCauses_changes _ _)
      · exact Changes.refl s

theorem uncoupledShot_changes (r : ShotResult) : Changes c s (s.uncoupledShot r) := by
  unfold State.uncoupledShot
  dsimp only
  split
  · split
    · exact modElementCover_aside s _ _
    · split
      · exact (modElementCover_aside s _ _).trans (requestCauses_changes _ _)
      · exact Changes.refl s
  · exact modElementCover_aside s _ _

theorem coverCoupling_changes (r : ShotResult) : Changes c s (s.coverCoupling r) := by
  unfold State.coverCoupling State.coupleShot
  split
  · split
    · exact coupledShot_changes s r
    · exact uncoupledShot_changes s r
  · exact Changes.refl s

theorem coverBackWall_changes (r : ShotResult) : Changes c s (s.coverBackWall r) := by
  unfold State.coverBackWall State.backWallShot
  dsimp only
  split
  · split
    · split
      · exact modElementCover_aside s _ _
      · exact Changes.refl s
    · exact (modElementCover_aside s _ _).trans (judgeLoss_changes _ _ _ _)
    all_goals exact Changes.refl s
  · exact Changes.refl s

theorem coverResults_changes (rs : List ShotResult) : ∀ act ∈ coverResults rs, ∀ u, Changes c u (act.2 u) := by
  intro act ha u
  obtain ⟨r, -, hr⟩ := List.mem_flatMap.1 ha
  simp only [List.mem_cons, List.not_mem_nil, or_false] at hr
  rcases hr with rfl | rfl
  · exact coverCoupling_changes u r
  · exact coverBackWall_changes u r

/-- Every element's account changed, each gap start left in agreement with its causes. -/
theorem mapCover_changes (f : Coverage → Coverage)
    (h : ∀ (a : Coverage) (e : Element), (a.element.get e).consistent → ((f a).element.get e).consistent) :
    Changes c s (s.modCover f) := (Change.cover s f (h s.cover)).changes

theorem countGapTravel_consistent (d : Nat) (a : Coverage) (e : Element) (h : (a.element.get e).consistent) :
    ((a.countGapTravel d).element.get e).consistent := by
  simp only [Coverage.countGapTravel, Eight.get_map]
  split <;> exact h

theorem coverAdvance_changes (t : Nat) : Changes c s (s.coverAdvance t) := by
  unfold State.coverAdvance
  dsimp only
  split
  · split
    · refine ((Change.cover s _ fun e he => ?_).changes.trans (append_changes _ _)).trans
        (mapCover_changes _ _ fun a e he => ?_)
      · exact countGapTravel_consistent _ s.cover e he
      · simpa [Coverage.restartGapTravel, ElementCover.consistent] using he
    · refine (Change.cover s _ fun e he => ?_).changes
      exact countGapTravel_consistent _ s.cover e he
  · exact Changes.refl s

theorem abandonAll_changes : Changes c s (s.modCover Coverage.abandonAll) :=
  mapCover_changes s _ fun a e he => by simpa [Coverage.abandonAll, ElementCover.consistent] using he

theorem coverLifted_changes : Changes c s s.coverLifted := by
  unfold State.coverLifted
  split
  · exact (abandonAll_changes s).trans (requestCauses_changes _ _)
  · exact Changes.refl s

theorem coverLowered_changes : Changes c s s.coverLowered := requestCauses_changes s _

theorem coverDisable_changes (e : Element) : Changes c s (s.coverDisable e) := by
  unfold State.coverDisable
  split
  · exact (modElementCover_aside s _ _).trans (requestCauses_changes _ _)
  · exact Changes.refl s

theorem coverHalt_changes : Changes c s s.coverHalt := by
  unfold State.coverHalt
  split
  · exact (abandonAll_changes s).trans (requestCauses_changes _ _)
  · exact Changes.refl s

theorem closeLosses_changes : Changes c s s.closeLosses := by
  refine Changes.foldl _ (fun t e => ?_) _ s
  split
  · exact (modElementCover_aside t _ _).trans (judgeLoss_changes _ _ _ _)
  · exact Changes.refl t

theorem closeGaps_changes : Changes c s s.closeGaps := by
  refine (mapCover_changes s _ fun a e he => ?_).trans (appendAll_changes _ _)
  simp only [Eight.get_map]
  split
  · rfl
  · exact he

theorem reportPartialSpan_changes : Changes c s s.reportPartialSpan := by
  unfold State.reportPartialSpan
  dsimp only
  split
  · exact append_changes s _
  · exact Changes.refl s

theorem coverRunEnd_changes : Changes c s s.coverRunEnd :=
  (((closeLosses_changes s).trans (closeGaps_changes _)).trans (reportPartialSpan_changes _)).trans
    (mapCover_changes _ _ fun _ _ => id)

theorem coverRunStart_changes : Changes c s s.coverRunStart :=
  mapCover_changes s _ fun a e _ => by simp [ElementCover.consistent, ElementCover.fresh, Causes.empty, Causes.nonempty]

/-! ## Scheduler and pulser bank -/

/-- The scheduler's state alone. -/
theorem setSched_changes (st : SchedState) : Changes c s (s.setSched st) :=
  (Change.sched s _ (fun _ => Nat.le_max_left _ _) fun _ => Nat.le_max_left _ _).changes

/-- The high voltage alone. -/
theorem hv_changes (f : HighVoltage → HighVoltage) : Changes c s (s.modPulser fun p => { p with hv := f p.hv }) :=
  (Change.pulser s _ fun _ => Nat.le_max_left _ _).changes

theorem schedOffHvOff_changes : Changes c s s.schedOffHvOff :=
  (setSched_changes s .off).trans (hv_changes _ fun _ => .off)

theorem fireElement_bounds (t d : Nat) (e : ElementSched) :
    (fireElement t d e).skipCount ≤ max e.skipCount 255 ∧ (fireElement t d e).onGrid ≤ max e.onGrid 8 := by
  unfold fireElement
  dsimp only
  split <;> simp

theorem latchShot_changes (taken : List Element) (peaks : Eight Nat) : Changes c s (s.latchShot taken peaks) := by
  refine (Change.sched s _ (fun e => ?_) fun e => ?_).changes.trans (Change.pulser _ _ fun e => ?_).changes
  · simp only [Eight.get_ofFn]
    split
    · exact (fireElement_bounds _ _ _).1
    · exact Nat.le_max_left _ _
  · simp only [Eight.get_ofFn]
    split
    · exact (fireElement_bounds _ _ _).2
    · exact Nat.le_max_left _ _
  · simp only [Pulser.countFires, Eight.get_ofFn]
    split
    · split <;> omega
    · exact Nat.le_max_left _ _

theorem unmask_changes (e : Element) : Changes c s (s.unmask e) := (Change.control s _ (.of_marks rfl)).changes

theorem disableActs_changes (e : Element) : ∀ act ∈ s.disableActs e, ∀ u, Changes c u (act.2 u) := by
  intro act ha u
  simp only [State.disableActs, List.mem_cons, List.mem_append, List.not_mem_nil, or_false] at ha
  rcases ha with rfl | ha | rfl | rfl
  · exact unmask_changes u e
  · exact trackDisable_changes s e act ha u
  · exact reportFault_changes u _ _
  · exact coverDisable_changes u e

theorem fireLanes_changes (taken : List Element) (peaks : Eight Nat) :
    ∀ l ∈ s.fireLanes taken peaks, ∀ act ∈ l, ∀ u, Changes c u (act.2 u) := by
  intro l hl act ha u
  simp only [State.fireLanes, List.mem_cons, List.not_mem_nil, or_false] at hl
  rcases hl with rfl | rfl
  · exact trackFire_changes s _ _ act ha u
  · rcases List.mem_append.1 ha with ha | ha
    · obtain ⟨f, hf, rfl⟩ := List.mem_map.1 ha
      exact causeActs_changes s _ f hf u
    · obtain ⟨e, -, he⟩ := List.mem_flatMap.1 ha
      exact disableActs_changes s e act he u

theorem attempt_changes (ord : Nat → Nat → Nat) (peaks : Eight Nat) : Changes c s (s.attempt ord peaks) := by
  unfold State.attempt
  split
  · exact Changes.refl s
  · exact (latchShot_changes s _ peaks).trans (inFreeOrder_changes _ _ _ (fireLanes_changes s _ peaks))

theorem schedRunning_changes : Changes c s s.schedRunning := by
  unfold State.schedRunning
  split
  · dsimp only
    split <;> exact (hv_changes s _).trans (setSched_changes _ _)
  all_goals exact Changes.refl s

theorem schedLifted_changes : Changes c s s.schedLifted := by
  unfold State.schedLifted
  split
  · exact setSched_changes s _
  · exact setSched_changes s _
  all_goals exact Changes.refl s

theorem schedStill_changes : Changes c s s.schedStill := by
  unfold State.schedStill
  split
  · exact schedOffHvOff_changes s
  · exact schedOffHvOff_changes s
  · exact schedOffHvOff_changes s
  all_goals exact Changes.refl s

theorem schedStop_changes : Changes c s s.schedStop := by
  unfold State.schedStop
  split
  · exact Changes.refl s
  all_goals exact schedOffHvOff_changes s

theorem schedRunStart_changes : Changes c s s.schedRunStart := by
  refine (Change.sched s _ (fun e => ?_) fun e => ?_).changes.trans (Change.pulser _ _ fun e => ?_).changes <;> simp

/-! ## Station control -/

theorem setStation_changes {st : StationState} (h : st ≠ .starting) : Changes c s (s.setStation st) :=
  (Change.control s _ (.of_state h rfl)).changes

theorem enterStill_changes : Changes c s s.enterStill :=
  ((setStation_changes s (by exact nofun)).trans (schedStill_changes _)).trans (queueStatus_changes _ _)

theorem enterLifted_changes : Changes c s s.enterLifted :=
  (((Change.control s _ (.of_state (by exact nofun) (by rfl))).changes.trans (schedLifted_changes _)).trans
    (coverLifted_changes _)).trans (queueStatus_changes _ _)

theorem leaveStill_changes : Changes c s s.leaveStill := (setStation_changes s (by exact nofun)).trans (schedRunning_changes _)

theorem leaveLifted_changes (ord : Nat → Nat → Nat) (peaks : Eight Nat) : Changes c s (s.leaveLifted ord peaks) :=
  ((((Change.control s _ (.of_state (by exact nofun) (by rfl))).changes.trans (coverLowered_changes _)).trans
    (schedRunning_changes _)).trans (attempt_changes _ _ _)).trans (queueStatus_changes _ _)

theorem tellStill_changes : Changes c s s.tellStill := by
  unfold State.tellStill
  split
  · exact enterStill_changes s
  all_goals exact Changes.refl s

theorem tellLift_changes (ord : Nat → Nat → Nat) (peaks : Eight Nat) (l : LiftState) :
    Changes c s (s.tellLift ord peaks l) := by
  unfold State.tellLift
  split
  · exact enterLifted_changes s
  · exact enterLifted_changes s
  · exact leaveLifted_changes s ord peaks
  all_goals exact Changes.refl s

theorem tellFirstEdge_changes : Changes c s s.tellFirstEdge := by
  unfold State.tellFirstEdge
  split
  · exact leaveStill_changes s
  all_goals exact Changes.refl s

theorem acceptHalt_changes : Changes c s s.acceptHalt :=
  ((((Change.control s _ (.of_state (by exact nofun) (by rfl))).changes.trans (schedOffHvOff_changes _)).trans
    (trackHalt_changes _)).trans (coverHalt_changes _)).trans (queueStatus_changes _ _)

theorem workHalt_changes : Changes c s s.workHalt := by
  unfold State.workHalt
  split
  · exact acceptHalt_changes s
  · exact acceptHalt_changes s
  · exact acceptHalt_changes s
  all_goals exact Changes.refl s

theorem workStop_changes : Changes c s s.workStop := by
  have accepted : Changes c s s.acceptStop :=
    ((Change.control s _ (.of_state (by exact nofun) (by rfl))).changes.trans (schedStop_changes _)).trans (queueStatus_changes _ _)
  unfold State.workStop
  split
  · exact accepted
  · exact accepted
  · exact accepted
  · exact accepted
  all_goals exact Changes.refl s

theorem applyRunEnd_changes : Changes c s s.applyRunEnd :=
  (((closeChains_changes s _).trans (coverRunEnd_changes _)).trans
    (Change.pair _ _ ⟨rfl, Nat.zero_le _, Nat.zero_le _, Nat.le_max_left _ _⟩).changes).trans
    (Change.control _ _ (.of_marks rfl)).changes

theorem runStart_inRange (start : BitVec 32) (o : Odometer) : (Odometer.runStart start.toInt o).pos.inRange := by
  have low := BitVec.le_toInt start
  have high := BitVec.toInt_lt (x := start)
  simp only [Odometer.runStart, FinePos.inRange, Config.positionMin, Config.positionMax]
  omega

theorem pairRunStart_changes : Changes c s s.pairRunStart := by
  refine (Change.pair s _ ⟨?_, Nat.zero_le _, Nat.zero_le _, Nat.le_max_left _ _⟩).changes
  rw [List.map_map]
  exact List.map_congr_left fun q _ => rfl

theorem judgeRunStart_changes : Changes c s s.judgeRunStart := by
  refine (Change.judge s _ ?_).changes
  constructor <;> simp

theorem applyRunStart_changes (src : BitVec 4) (dest : Byte) (n : BitVec 16) (start : BitVec 32) :
    Changes (.run src dest n start) s (s.applyRunStart n start.toInt) := by
  have numbered : Changes (.run src dest n start) s
      (s.modControl fun c => { c with runNumber := n, runEndPending := false }) := by
    refine (Change.control s _ ?_).changes
    constructor <;> simp
  have placed := numbered.trans
    (Change.odo _ (Odometer.runStart start.toInt) (fun _ => runStart_inRange _ _) fun _ => Nat.zero_le _).changes
  exact (((((placed.trans (Change.control _ _ (.of_marks rfl)).changes).trans (schedRunStart_changes _)).trans
    (trackRunStart_changes _)).trans (judgeRunStart_changes _)).trans (coverRunStart_changes _)).trans
    (pairRunStart_changes _)

theorem workRun_changes (src : BitVec 4) (dest : Byte) (n : BitVec 16) (start : BitVec 32) :
    Changes (.run src dest n start) s (s.workRun n start) := by
  have running := ((((applyRunStart_changes s src dest n start).trans
    (setStation_changes _ (st := .running) nofun)).trans (queueAnnounce_changes _ false)).trans
    (queueStatus_changes _ 0)).trans (schedRunning_changes _)
  have accepted : Changes (.run src dest n start) s (s.acceptRun n start.toInt) := by
    unfold State.acceptRun
    dsimp only
    split
    · exact running.trans (enterLifted_changes _)
    · exact running
  unfold State.workRun
  split
  · exact count_changes s (by simp)
  · split
    · exact accepted
    · exact accepted
    · exact Changes.refl s
    all_goals exact queueStatus_changes s _

theorem workClear_changes : Changes c s s.workClear := by
  refine (Change.control s _ ?_).changes
  constructor <;> simp [FaultFile.nextIndex, sat16_le]

/-! ## Odometer and shots -/

/-- A change of the odometer's filters, timers and marks alone. -/
theorem odo_changes (f : Odometer → Odometer) (pos : (f s.odo).pos = s.odo.pos) (travel : (f s.odo).travel = s.odo.travel) :
    Changes c s (s.modOdo f) := (Change.odo s f (pos ▸ id) (travel ▸ id)).changes

theorem move_inRange (p : FinePos) (d : Int) : (p.move d).inRange := by
  simp only [FinePos.move, FinePos.ofMicros, FinePos.inRange, Config.positionMin, Config.positionMax]
  omega

theorem advanceLanes_changes (a : Advance) : ∀ l ∈ s.advanceLanes a, ∀ act ∈ l, ∀ u, Changes c u (act.2 u) := by
  intro l hl act ha u
  simp only [State.advanceLanes, List.mem_cons, List.not_mem_nil, or_false] at hl
  rcases hl with rfl | rfl | rfl | rfl
  · split at ha
    · rw [List.mem_singleton.1 ha]
      exact queueStatus_changes u 0
    · simp at ha
  · exact trackAdvance_changes s _ _ act ha u
  · rw [List.mem_singleton.1 ha]
    exact coverAdvance_changes u _
  · rw [List.mem_singleton.1 ha]
    exact pairAdvance_changes u _

theorem handAdvance_changes (ord : Nat → Nat → Nat) (peaks : Eight Nat) (a : Advance) :
    Changes c s (s.handAdvance ord peaks a) := by
  have moving : Changes c s (if a.afterStill then s.tellFirstEdge else s) := by
    split
    · exact tellFirstEdge_changes s
    · exact Changes.refl s
  unfold State.handAdvance
  dsimp only
  generalize (if a.afterStill then s.tellFirstEdge else s) = m at moving ⊢
  split
  · exact moving.trans (inFreeOrder_changes _ _ _ (advanceLanes_changes s a))
  · refine (moving.trans (latchShot_changes _ _ _)).trans (inFreeOrder_changes _ _ _ fun l hl => ?_)
    rcases List.mem_append.1 hl with hl | hl
    · exact advanceLanes_changes s a l hl
    · exact fireLanes_changes _ _ _ l hl

theorem acceptLevels_changes (ord : Nat → Nat → Nat) (lines : AcceptedLines) (peaks : Eight Nat) :
    Changes c s (s.acceptLevels ord lines peaks) := by
  have accepted : Changes c s (s.modOdo (Odometer.accept lines s.pins.encA s.pins.encB)) := odo_changes s _ rfl rfl
  have edge (t : State) (d : Int) : Changes c t (t.acceptEdge ord peaks d) :=
    (Change.odo t _ (fun _ => move_inRange _ _) fun _ => Nat.min_le_right _ _).changes.trans (handAdvance_changes _ _ _ _)
  unfold State.acceptLevels
  dsimp only
  split
  · exact accepted
  · exact accepted.trans (edge _ _)
  · exact accepted.trans (edge _ _)
  · exact accepted.trans (reportFault_changes _ _ _)

theorem declareStill_changes : Changes c s s.declareStill := (odo_changes s _ rfl rfl).trans (tellStill_changes _)

theorem recogniseLift_changes (ord : Nat → Nat → Nat) (peaks : Eight Nat) : Changes c s (s.recogniseLift ord peaks) := by
  unfold State.recogniseLift
  dsimp only
  split
  · exact odo_changes s _ rfl rfl
  · exact (odo_changes s _ rfl rfl).trans (tellLift_changes _ _ _ _)

theorem onListeningEnd_changes (ord : Nat → Nat → Nat) (traces : Eight (List Byte)) :
    Changes c s (s.onListeningEnd ord traces) := by
  have counted (n : Nat) : Changes c s (s.addExcess n) := by
    refine (Change.judge s _ ?_).changes
    constructor <;> simp [sat16_le]
  have ended (t : State) : Changes c t t.schedListeningEnd := by
    unfold State.schedListeningEnd
    split
    · exact schedOffHvOff_changes t
    · exact setSched_changes t _
  unfold State.onListeningEnd
  split
  · refine ((counted _).trans (inFreeOrder_changes _ _ _ fun l hl => ?_)).trans (ended _)
    simp only [List.mem_cons, List.not_mem_nil, or_false] at hl
    rcases hl with rfl | rfl
    · exact trackListeningEnd_changes _ _ _
    · exact coverResults_changes _
  all_goals exact Changes.refl s

theorem onRecoveryEnd_changes (ord : Nat → Nat → Nat) (peaks : Eight Nat) : Changes c s (s.onRecoveryEnd ord peaks) := by
  unfold State.onRecoveryEnd State.endRecovery
  split
  · split
    · exact (setSched_changes s _).trans (attempt_changes _ _ _)
    · split
      · exact schedOffHvOff_changes s
      · exact setSched_changes s _
  all_goals exact Changes.refl s

theorem onSettleComplete_changes (ord : Nat → Nat → Nat) (peaks : Eight Nat) :
    Changes c s (s.onSettleComplete ord peaks) := by
  have ready : Changes c s (s.modPulser fun p => { p with hv := .ready }) := hv_changes s fun _ => .ready
  unfold State.onSettleComplete State.endSettle
  dsimp only
  split
  · split
    · exact (ready.trans (setSched_changes _ _)).trans (attempt_changes _ _ _)
    · exact ready
  all_goals exact Changes.refl s

end Sys2Proof.Machine
end

section
/-! SUPPORT. The elementary changes of the link's events, of the frame rows and of a tick, and with them of every command
that does not start the part; what one step can do. -/

namespace Sys2Proof.Machine

variable {c : Instr} (s : State)

/-! ## The line -/

/-- A change of what the receiver knows of the line. -/
theorem Link.Keeps.of_line {a b : Link} (rx : b.rx = .inactive → a.rx = .inactive)
    (h : b = { a with rx := b.rx, quiet := b.quiet, pulse := b.pulse }) : a.Keeps b where
  rx := rx
  txQueue := by rw [h]
  rxQueue := by rw [h]
  tx := by rw [h]; exact id
  counts := by rw [h]
  drops := by rw [h]

/-- A change of the transmitter's state, to one in agreement with its queue. -/
theorem Link.Keeps.of_tx {a b : Link} (tx : a.txAgrees → b.txAgrees) (h : b = { a with tx := b.tx }) : a.Keeps b where
  tx := tx
  rx := by rw [h]; exact id
  txQueue := by rw [h]
  rxQueue := by rw [h]
  counts := by rw [h]
  drops := by rw [h]

theorem release_changes : Changes c s (s.modLink Link.release) := (Change.link s _ (.of_line id rfl)).changes

theorem setRx_changes (rx : RxState) (h : rx ≠ .inactive := by exact nofun) : Changes c s (s.modLink (Link.setRx rx)) :=
  (Change.link s _ (.of_line (fun e => absurd e h) rfl)).changes

theorem takeHead_changes (src : BitVec 4) : Changes c s (s.takeHead src) := by
  have taken : Changes c s (s.modLink fun l => { l with rxQueue := s.link.rxQueue.tail }) :=
    (Change.link s _ (by exact ⟨List.Sublist.refl _, List.tail_sublist _, id, id, rfl, rfl⟩)).changes
  rw [takeHead_eq]
  split
  · exact (taken.trans (markRxqOverrun_changes _ _)).trans (shown_changes _ _)
  · exact taken.trans (shown_changes _ _)

theorem acceptGood_changes (f : Frame) : Changes c s (s.acceptGood f) := by
  have counted : Changes c s (s.count Outcomes.countReceived) := count_changes s (by simp)
  unfold State.acceptGood
  dsimp only
  split
  · exact counted.trans (reportFault_changes _ _ _)
  · next other =>
    split
    · exact counted
    · refine counted.trans ?_
      unfold State.enterQueue
      split
      · next room => exact (Change.receive _ f room other).changes
      · exact (count_changes _ (by simp)).trans (reportRxqOverrun_changes _)

theorem hearFrame_changes (f : Frame) : Changes c s (s.hearFrame f) := by
  unfold State.hearFrame
  split
  · exact Changes.refl s
  · split
    · exact acceptGood_changes s f
    · exact count_changes s (by simp)

theorem transmitError_changes : Changes c s s.transmitError := (count_changes s (by simp)).trans (popHead_changes _)

theorem hearBit_changes (bits : List Bool) (cut : Option Nat) (b : Bool) : Changes c s (s.hearBit bits cut b) := by
  unfold State.hearBit
  dsimp only
  split
  · next differs =>
    split
    · refine ((setRx_changes s _).trans (count_changes (f := Outcomes.countLost) _ (by simp))).trans
        (Change.link _ (Link.setTx .backedOff) (.of_tx (fun agrees => ?_) (by rfl))).changes
      have sending : (((s.modLink (Link.setRx (.frame (bits ++ [b]) cut))).count Outcomes.countLost).link).tx =
        .sending := differs.1
      simpa [Link.txAgrees, sending, Link.setTx] using agrees
    · exact (setRx_changes s _).trans (transmitError_changes _)
  · exact setRx_changes s _

theorem hearFormError_changes : Changes c s s.hearFormError := by
  obtain ⟨u, counted, e⟩ : ∃ u, Changes c s u ∧ s.hearFormError =
      if s.link.tx = .sending then (u.modLink (Link.setRx .seeking)).transmitError
      else u.modLink (Link.setRx .seeking) := by
    have counted : Changes c s (s.count Outcomes.countRxForm) := count_changes s (by simp)
    refine ⟨_, ?_, rfl⟩
    split
    · exact counted
    · split
      · exact Changes.refl s
      · exact counted
    all_goals exact Changes.refl s
  have sought : Changes c s (u.modLink (Link.setRx .seeking)) := counted.trans (setRx_changes u _)
  rw [e]
  split
  · exact sought.trans (transmitError_changes _)
  · exact sought

theorem abortSending_changes : Changes c s s.abortSending := by
  unfold State.abortSending
  split
  · next sending =>
    refine (count_changes s (by simp)).trans (Change.link _ _ (.of_tx (fun agrees => ?_) (by rfl))).changes
    have still : (s.count Outcomes.countAborted).link.tx = .sending := sending
    simpa [Link.txAgrees, still, Link.setTx] using agrees
  · exact Changes.refl s

theorem hearStuckLine_changes : Changes c s s.hearStuckLine := by
  have sought : Changes c s
      ((s.modLink fun l => { l with rx := .seeking, pulse := some Config.stuckTicks }).abortSending) :=
    (Change.link s _ (.of_line (by exact nofun) (by rfl))).changes.trans (abortSending_changes _)
  unfold State.hearStuckLine
  dsimp only
  split
  · exact sought
  · exact (sought.trans (Change.link _ _ (.of_tx (by exact fun _ => trivial) (by rfl))).changes).trans (reportFault_changes _ _ _)

theorem hearPulse_changes (k : PulseClass) : Changes c s (s.hearPulse k) := by
  have released : Changes c s (s.modLink Link.release) := release_changes s
  unfold State.hearPulse
  dsimp only
  split
  · refine (Change.link s _ (.of_line (fun e => ?_) ?_)).changes.trans (count_changes _ (by simp))
    · rwa [Link.releaseNoise_eq] at e
    · rw [Link.releaseNoise_eq]
  · split
    · exact released.trans (hearBit_changes _ _ _ _)
    all_goals exact released
  · exact released.trans (setRx_changes _ _)
  · exact released.trans (hearFormError_changes _)
  · exact released
  · exact ((released.trans (setRx_changes _ _)).trans (abortSending_changes _)).trans (workHalt_changes _)
  · exact (hearStuckLine_changes s).trans (release_changes _)

theorem onPulse_changes (p : Pulse) : Changes c s (s.onPulse p) := by
  unfold State.onPulse
  split
  · exact Changes.refl s
  · split
    · exact (Change.link s _ (.of_line id rfl)).changes
    · exact hearPulse_changes s _

theorem txAtIdle_agrees {l : Link} (dominant : Bool) (h : l.txAgrees) : (l.becomeIdle dominant).txAgrees := by
  simp only [Link.becomeIdle, Link.txAtIdle, Link.txAgrees] at h ⊢
  cases tx : l.tx <;> cases dominant <;> cases queue : l.txQueue <;> simp_all

theorem onLineIdle_changes (dominant : Bool) : Changes c s (s.onLineIdle dominant) := by
  have idle : Changes c s (s.modLink (Link.becomeIdle dominant)) :=
    (Change.link s _ (by
      exact ⟨List.Sublist.refl _, List.Sublist.refl _, nofun, txAtIdle_agrees dominant, rfl, rfl⟩)).changes
  unfold State.onLineIdle
  split
  · exact idle
  · exact idle
  all_goals exact Changes.refl s

theorem onFrameEnd_changes : Changes c s s.onFrameEnd := by
  have judged (bits : List Bool) (cut : Option Nat) (t : State) : Changes c t (t.judgeFrame bits cut) := by
    unfold State.judgeFrame
    split
    · split
      · exact Changes.refl t
      · exact count_changes t (by simp)
    · split
      · exact Changes.refl t
      · exact count_changes t (by simp)
    · exact count_changes t (by simp)
    · exact acceptGood_changes t _
  have ended (bits : List Bool) (t : State) : Changes c t (t.endOwnFrame bits) := by
    unfold State.endOwnFrame
    split
    · exact (count_changes t (by simp)).trans (popHead_changes _)
    · exact transmitError_changes t
  unfold State.onFrameEnd
  split
  · have sought : Changes c s
        (s.modLink fun l => { l with rx := .seeking, quiet := max l.quiet Config.frameEndTicks }) :=
      (Change.link s _ (.of_line (by exact nofun) (by rfl))).changes
    dsimp only
    split
    · exact sought.trans (ended _ _)
    · exact sought.trans (judged _ _ _)
  all_goals exact Changes.refl s

theorem onTransmitError_changes (heard : Heard) : Changes c s (s.onTransmitError heard) := by
  have stopped : Changes c s (s.modLink Link.markStopped) := by
    cases state : s.link.rx with
    | frame bits _ =>
      have marked : s.modLink Link.markStopped = s.modLink (Link.setRx (.frame bits (some bits.length))) := by
        simp only [State.modLink, Link.markStopped, state]
      rw [marked]
      exact setRx_changes s _
    | _ =>
      have same : s.modLink Link.markStopped = s := by simp only [State.modLink, Link.markStopped, state]
      rw [same]
  unfold State.onTransmitError
  split
  · split
    · split
      · exact hearPulse_changes s _
      · exact Changes.refl s
    · split
      · exact hearPulse_changes s _
      · exact Changes.refl s
    · split
      · exact stopped.trans (transmitError_changes _)
      · exact Changes.refl s
  · exact Changes.refl s

/-! ## Frame rows -/

/-- Everything a frame row can do: the frame arrives now or waits already, and is then worked as the head of the receive
queue, or stays (assumption log 9). -/
theorem dispatchAs_cases (work : State → State) :
    ∃ t, (t = s ∨ ∃ f, commandFrame c = some f ∧ t = s.hearFrame f) ∧
      (s.dispatchAs c work = t ∨
        ∃ f ∈ t.link.rxQueue, frameCommand f = c ∧ s.dispatchAs c work = work (t.takeHead f.source)) := by
  have worked (t : State) : (if t.headReady c then work (t.takeHead ((t.link.rxQueue.head?.map (·.source)).getD 0)) else t) = t ∨
      ∃ f ∈ t.link.rxQueue, frameCommand f = c ∧
        (if t.headReady c then work (t.takeHead ((t.link.rxQueue.head?.map (·.source)).getD 0)) else t) =
          work (t.takeHead f.source) := by
    unfold State.headReady
    cases queue : t.link.rxQueue with
    | nil => simp
    | cons f rest =>
      by_cases ready : (frameCommand f == c && t.canTake f) = true
      · refine .inr ⟨f, by simp, ?_, by simp [ready]⟩
        simp only [Bool.and_eq_true, beq_iff_eq] at ready
        exact ready.1
      · exact .inl (by simp [ready])
  unfold State.dispatchAs
  dsimp only
  cases frame : commandFrame c with
  | none => exact ⟨s, .inl rfl, worked s⟩
  | some f =>
    dsimp only
    split
    · exact ⟨s, .inl rfl, worked s⟩
    · exact ⟨_, .inr ⟨f, rfl, rfl⟩, worked _⟩

theorem dispatchAs_changes (d : Instr) {work : State → State} (h : ∀ t, Changes c t (work t)) :
    Changes c s (s.dispatchAs d work) := by
  obtain ⟨t, heard, worked⟩ := dispatchAs_cases s (c := d) work
  have first : Changes c s t := by
    rcases heard with rfl | ⟨f, -, rfl⟩
    · exact Changes.refl t
    · exact hearFrame_changes s f
  rcases worked with e | ⟨f, -, -, e⟩ <;> rw [e]
  · exact first
  · exact (first.trans (takeHead_changes t _)).trans (h _)

/-- The sender of an ANNOUNCE is the source of its frame. -/
theorem source_of_announce {f : Frame} {src : BitVec 4} {a : AnnounceFields} (h : frameCommand f = .announce src a) :
    f.source = src := by
  unfold frameCommand at h
  dsimp only at h
  iterate 12
    rcases ite_eq_iff.1 h with ⟨-, h⟩ | ⟨-, h⟩
    · exact nomatch h
  rcases ite_eq_iff.1 h with ⟨-, h⟩ | ⟨-, h⟩
  · cases h
    rfl
  · exact nomatch h

/-- A change of entries that keeps their addresses, with notices forgotten. -/
theorem peers_changes (f : Peer → Peer) (keep : PeerNotice → Bool) (h : ∀ q, (f q).address = q.address) :
    Changes c s (s.modPair fun p => { p with peers := p.peers.map f, notices := p.notices.filter keep }) := by
  refine (Change.pair s _ ⟨?_, (List.length_filter_le _ _).trans (Nat.le_max_left _ _), Nat.le_max_left _ _,
    Nat.le_max_left _ _⟩).changes
  rw [List.map_map]
  exact List.map_congr_left fun q _ => h q

/-- The same with every notice kept. -/
theorem mapPeers_changes (f : Peer → Peer) (h : ∀ q, (f q).address = q.address) :
    Changes c s (s.modPair fun p => { p with peers := p.peers.map f }) := by
  refine (Change.pair s _ ⟨?_, Nat.le_max_left _ _, Nat.le_max_left _ _, Nat.le_max_left _ _⟩).changes
  rw [List.map_map]
  exact List.map_congr_left fun q _ => h q

@[simp] theorem shown_addresses (src : BitVec 4) :
    (s.shown src).pair.peers.map (·.address) = s.pair.peers.map (·.address) := by
  simp only [State.shown, State.modPair_pair, List.map_map]
  refine List.map_congr_left fun q _ => ?_
  simp only [Function.comp_apply]
  split <;> rfl

theorem takeHead_addresses (src : BitVec 4) :
    (s.takeHead src).pair.peers.map (·.address) = s.pair.peers.map (·.address) := by
  rw [takeHead_eq, shown_addresses]
  split <;> rfl

/-- A dispatched ANNOUNCE: its sender's entry is made or worked as its frame leaves the queue (R118). -/
theorem receiveAnnounce_changes (f : Frame) (a : AnnounceFields) (waits : f ∈ s.link.rxQueue) :
    Changes c s ((s.takeHead f.source).receiveAnnounce f.source a) := by
  have taken : Changes c s (s.takeHead f.source) := takeHead_changes s _
  unfold State.receiveAnnounce
  split
  · next state _ els _ _ _ =>
    unfold State.workAnnounce
    dsimp only
    split
    · next new =>
      refine (Change.meet s f _ _ waits rfl fun known => ?_).changes.trans (queueAnnounce_changes _ _)
      rw [← takeHead_addresses s f.source] at known
      obtain ⟨q, hq, address⟩ := List.mem_map.1 known
      simpa [address] using List.find?_eq_none.1 new q hq
    · have entered : ∀ u : State, Changes c s u → Changes c s (if a.fresh then u.queueAnnounce false else u) := by
        intro u h
        split
        · exact h.trans (queueAnnounce_changes _ _)
        · exact h
      apply entered
      split
      · refine taken.trans (peers_changes _ _ _ fun r => ?_)
        split
        · next same => exact same.symm
        · rfl
      · refine taken.trans (mapPeers_changes _ _ fun r => ?_)
        split <;> rfl
  · exact taken.trans (count_changes _ (by simp))

theorem announce_changes (src : BitVec 4) (a : AnnounceFields) :
    Changes c s (s.dispatchAs (.announce src a) (State.receiveAnnounce src a)) := by
  obtain ⟨t, heard, worked⟩ := dispatchAs_cases s (c := .announce src a) (State.receiveAnnounce src a)
  have first : Changes c s t := by
    rcases heard with rfl | ⟨f, -, rfl⟩
    · exact Changes.refl t
    · exact hearFrame_changes s f
  rcases worked with e | ⟨f, waits, command, e⟩ <;> rw [e]
  · exact first
  · rw [← source_of_announce command]
    exact first.trans (receiveAnnounce_changes t f a waits)

theorem receiveGap_changes (src : BitVec 4) (g : GapFields) : Changes c s (s.receiveGap src g) := by
  unfold State.receiveGap
  split
  · exact count_changes s (by simp)
  · refine mapPeers_changes s _ fun q => ?_
    split <;> rfl

theorem storeNotice_length (n : PeerNotice) (p : Pairing) :
    (storeNotice n p).notices.length ≤ max p.notices.length Config.peerNoticeCapacity := by
  unfold storeNotice
  split
  · simp
  · split <;> simp [Config.peerNoticeCapacity] at * <;> omega

theorem storeNotice_keeps (n : PeerNotice) (p : Pairing) : p.Keeps (storeNotice n p) := by
  refine ⟨?_, storeNotice_length n p, ?_, ?_⟩ <;> unfold storeNotice <;> split
  any_goals rfl
  any_goals exact Nat.le_max_left _ _
  all_goals split
  any_goals rfl
  any_goals exact Nat.le_max_left _ _
  exact bump_le_max _ _

theorem receiveIndication_changes (src : BitVec 4) (i : IndicationFields) :
    Changes c s (s.receiveIndication src i) := by
  have paired : Changes c s (s.workPaired src i) := by
    refine (Change.pair s _ ⟨rfl, (List.length_filter_le _ _).trans (Nat.le_max_left _ _), ?_,
      Nat.le_max_left _ _⟩).changes
    split
    · exact (List.length_filter_le _ _).trans (Nat.le_max_left _ _)
    · exact Nat.le_max_left _ _
  have unpaired (n : PeerNotice) : Changes c s (s.workUnpaired n) := by
    unfold State.workUnpaired
    split
    · next at_ o _ =>
      have removed : Changes c s (s.modPair fun p => { p with own := p.own.eraseIdx at_ }) :=
        (Change.pair s _ (by exact ⟨rfl, Nat.le_max_left _ _,
          (List.length_eraseIdx_le _ _).trans (Nat.le_max_left _ _), Nat.le_max_left _ _⟩)).changes
      dsimp only
      split
      · exact removed.trans (append_changes _ _)
      · exact removed
    · split
      · exact (Change.pair s _ (storeNotice_keeps n _)).changes
      · exact Changes.refl s
  unfold State.receiveIndication
  split
  · split
    · exact count_changes s (by simp)
    · split
      · exact paired
      · exact unpaired _
  · exact Changes.refl s

theorem receiveFlush_changes (scope : Byte) (peer : BitVec 4) : Changes c s (s.receiveFlush scope peer) := by
  unfold State.receiveFlush
  split
  · exact count_changes s (by simp)
  · split
    · exact Changes.refl s
    · split
      · exact (Change.pair s _ (by exact ⟨rfl, Nat.zero_le _, Nat.zero_le _, Nat.le_max_left _ _⟩)).changes
      · split
        · exact (Change.pair s _ (by exact ⟨rfl, (List.length_filter_le _ _).trans (Nat.le_max_left _ _),
            Nat.le_max_left _ _, Nat.le_max_left _ _⟩)).changes
        · exact (Change.pair s _ (by exact ⟨rfl, Nat.le_max_left _ _, Nat.zero_le _, Nat.le_max_left _ _⟩)).changes

theorem receiveZone_changes (src : BitVec 4) (dest index : Byte) (base limit : BitVec 32) :
    Changes (.zone src dest index base limit) s (s.receiveZone index base.toInt limit.toInt) := by
  unfold State.receiveZone
  split
  · exact count_changes s (by simp)
  · split
    · exact Changes.refl s
    · refine (Change.judge s _ ?_).changes
      constructor <;> simp

/-! ## Every command, a tick, a step -/

/-- Every command that does not start the part is worked by elementary changes. -/
theorem exec_changes {t : State} (starts : startsPart c = false) (h : exec c s = .next t) : Changes c s t := by
  have line (p : Pins) : Changes c s { s with pins := p } := (Change.pins s p).changes
  cases c <;> obtain rfl := Host.Outcome.next.inj h
  case reset | startingEnd | heldInReset => exact nomatch starts
  case encoderLineChange line' level =>
    unfold State.encoderLine
    dsimp only
    split
    · refine (line _).trans (odo_changes _ _ ?_ ?_) <;> cases line' <;> rfl
    · exact line _
  case encoderLevelAccepted lines peaks =>
    split
    · exact acceptLevels_changes s _ _ _
    · exact Changes.refl s
  case stillness =>
    split
    · exact declareStill_changes s
    · exact Changes.refl s
  case liftLineChange level =>
    unfold State.liftLine
    dsimp only
    split
    · exact (line _).trans (odo_changes _ _ rfl rfl)
    · exact line _
  case liftRecognised peaks =>
    split
    · exact recogniseLift_changes s _ _
    · exact Changes.refl s
  case listeningEnd traces => exact onListeningEnd_changes s _ _
  case recoveryEnd peaks => exact onRecoveryEnd_changes s _ _
  case settleComplete peaks => exact onSettleComplete_changes s _ _
  case run src dest n start => exact dispatchAs_changes s _ fun t => workRun_changes t src dest n start
  case stop => exact dispatchAs_changes s _ workStop_changes
  case runEnd =>
    split
    · exact applyRunEnd_changes s
    · exact Changes.refl s
  case halt => exact dispatchAs_changes s _ workHalt_changes
  case zone src dest index base limit =>
    exact dispatchAs_changes s _ fun t => receiveZone_changes t src dest index base limit
  case flush => exact dispatchAs_changes s _ fun t => receiveFlush_changes t _ _
  case clear => exact dispatchAs_changes s _ workClear_changes
  case query => exact dispatchAs_changes s _ fun t => queueStatus_changes t _
  case announce src fields => exact announce_changes s src fields
  case indication => exact dispatchAs_changes s _ fun t => receiveIndication_changes t _ _
  case gap => exact dispatchAs_changes s _ fun t => receiveGap_changes t _ _
  case span => exact dispatchAs_changes s _ Changes.refl
  case fault => exact dispatchAs_changes s _ Changes.refl
  case status => exact dispatchAs_changes s _ Changes.refl
  case unknownKind => exact dispatchAs_changes s _ fun t => count_changes t (by simp)
  case lineIdle dominant => exact onLineIdle_changes s dominant
  case frameEnd => exact onFrameEnd_changes s
  case arbitrationLost =>
    unfold State.onArbitrationLost
    split
    · exact hearPulse_changes s _
    · exact Changes.refl s
  case transmitError heard => exact onTransmitError_changes s heard
  case stuckLine =>
    unfold State.onStuckLine
    split
    · exact Changes.refl s
    · exact hearStuckLine_changes s
  case haltSymbol | noisePulse | formError | leadMark | bitReceived | waitForIdleRestart => exact onPulse_changes s _

theorem Link.tick_keeps (l : Link) : l.Keeps l.tick := by
  unfold Link.tick
  split
  · exact ⟨List.Sublist.refl _, List.Sublist.refl _, id, id, rfl, rfl⟩
  · next active =>
    split
    · refine .of_line (fun e => ?_) rfl
      dsimp only at e
      split at e
      · cases rx : l.rx <;> simp_all [RxState.giveUp]
      · exact e
    · exact .of_line id rfl

theorem tick_changes : Changes c s s.tick :=
  (((odo_changes s (Odometer.tick s.stillTicks) rfl rfl).trans (Change.sched _ _
    (by exact fun _ => Nat.le_max_left _ _) (by exact fun _ => Nat.le_max_left _ _)).changes).trans
    (hv_changes _ HighVoltage.tick)).trans (Change.link _ _ (Link.tick_keeps _)).changes

/-- Everything one step can do: work a command, the one at the front of the queue or one that is due, or wait, or let a
tick pass. -/
theorem step_cases {t : State} (h : step s = .next t) :
    ∃ rest, (∃ d, exec d { s with pending := rest } = .next t) ∨ t = s ∨ t = s.tick := by
  unfold step at h
  split at h
  · next d rest _ => exact ⟨rest, .inl ⟨d, h⟩⟩
  · unfold idle at h
    refine ⟨s.pending, ?_⟩
    split at h
    · next d _ => exact .inl ⟨d, h⟩
    · cases Host.Outcome.next.inj h
      split
      · exact .inr (.inl rfl)
      · exact .inr (.inr rfl)

/-- What the commands that start the part keep, and every elementary change, and what the queue of commands plays no part
in, every step keeps. -/
theorem step_keeps {P : State → Prop} (queue : ∀ s rest, P s → P { s with pending := rest })
    (change : ∀ d s t, Change d s t → P s → P t)
    (start : ∀ d s t, startsPart d = true → exec d s = .next t → P s → P t) :
    ∀ s t, P s → step s = .next t → P t := by
  have changes : ∀ d s t, Changes d s t → P s → P t := by
    intro d s t h hp
    induction h with
    | refl => exact hp
    | tail _ one ih => exact change d _ _ one ih
  intro s t hp h
  obtain ⟨rest, ⟨d, worked⟩ | rfl | rfl⟩ := step_cases s h
  · cases kind : startsPart d with
    | true => exact start d _ t kind worked (queue s rest hp)
    | false => exact changes d _ t (exec_changes _ kind worked) (queue s rest hp)
  · exact hp
  · exact changes .stillness s _ (tick_changes s) hp

end Sys2Proof.Machine
end

section
/-! SUPPORT. What every step keeps: each invariant under each elementary change and under the commands that start the
part; then the theorems that settle O55, O56, O57, O58, O59 and O60. -/

namespace Sys2Proof.Machine

variable {c : Instr} {s t : State}

/-! ## The commands that start the part -/

/-- The part as a load leaves it, before its two notices are queued (R164). -/
def State.started (memory : List Byte) (s : State) : State :=
  (({ s with loader := s.loader.finish (loadedBytes memory) }.modControl
    (Control.load (checkImage (loadedBytes memory)))).modLink Link.activate).startOdometer

theorem endStarting_eq (memory : List Byte) (s : State) :
    s.endStarting memory = ((s.started memory).queueAnnounce true).queueStatus 0 := rfl

theorem endStarting_changes (memory : List Byte) (s : State) : Changes c (s.started memory) (s.endStarting memory) :=
  (queueAnnounce_changes _ true).trans (queueStatus_changes _ 0)

section
variable (memory : List Byte) (s : State)

theorem startOdometer_eq (u : State) :
    u.startOdometer = { u with odo := if u.control.state = .ready then u.odo.activate u.pins else u.odo } := by
  unfold State.startOdometer
  split <;> rfl

@[simp] theorem started_link : (s.started memory).link = s.link.activate := by simp [State.started, startOdometer_eq]
@[simp] theorem started_control :
    (s.started memory).control = s.control.load (checkImage (loadedBytes memory)) := by
  simp [State.started, startOdometer_eq]
@[simp] theorem started_sched : (s.started memory).sched = s.sched := by simp [State.started, startOdometer_eq]
@[simp] theorem started_pulser : (s.started memory).pulser = s.pulser := by simp [State.started, startOdometer_eq]
@[simp] theorem started_tracker : (s.started memory).tracker = s.tracker := by simp [State.started, startOdometer_eq]
@[simp] theorem started_judge : (s.started memory).judge = s.judge := by simp [State.started, startOdometer_eq]
@[simp] theorem started_cover : (s.started memory).cover = s.cover := by simp [State.started, startOdometer_eq]
@[simp] theorem started_pair : (s.started memory).pair = s.pair := by simp [State.started, startOdometer_eq]
@[simp] theorem started_loader : (s.started memory).loader = s.loader.finish (loadedBytes memory) := by
  simp [State.started, startOdometer_eq]
@[simp] theorem started_pins : (s.started memory).pins = s.pins := by simp [State.started, startOdometer_eq]
@[simp] theorem started_hold : (s.started memory).hold = s.hold := by simp [State.started, startOdometer_eq]
@[simp] theorem started_pending : (s.started memory).pending = s.pending := by simp [State.started, startOdometer_eq]

theorem started_odo :
    (s.started memory).odo =
      if (s.control.load (checkImage (loadedBytes memory))).state = .ready then s.odo.activate s.pins else s.odo := by
  rw [State.started, startOdometer_eq]
  rfl

theorem started_odo_place :
    (s.started memory).odo.pos = s.odo.pos ∧ (s.started memory).odo.travel = s.odo.travel := by
  rw [started_odo]
  split <;> exact ⟨rfl, rfl⟩
end

@[simp] theorem Control.load_address (o : LoadOutcome) (a : Control) : (a.load o).address = a.address := by
  cases o <;> rfl
@[simp] theorem Control.load_faults (o : LoadOutcome) (a : Control) : (a.load o).faults = a.faults := by
  cases o <;> rfl

/-- A load ends in READY or UNCONFIGURED. -/
theorem Control.load_state (o : LoadOutcome) (a : Control) :
    (a.load o).state = .ready ∨ (a.load o).state = .unconfigured := by
  cases o <;> simp [Control.load]

/-- The state in reset, whatever the straps, the cause and the fault file that stand with it. -/
theorem exec_resets (kind : (∃ cause straps, c = .reset cause straps) ∨ ∃ cause, c = .heldInReset cause)
    (h : exec c s = .next t) :
    ∃ cause address rail faults loader hold,
      (faults = s.control.faults ∨ faults = FaultFile.empty) ∧
      t = { s.clearBlocks with
        loader := loader, hold := hold, control := Control.afterReset cause address rail faults } := by
  rcases kind with ⟨cause, straps, rfl⟩ | ⟨cause, rfl⟩ <;> obtain rfl := Host.Outcome.next.inj h
  · refine ⟨_, _, _, _, _, _, ?_, rfl⟩
    unfold faultsAfter
    split <;> simp
  · exact ⟨_, _, _, _, _, _, .inl rfl, rfl⟩

/-- The three commands that start the part: two put it in reset, and a load starts it or finds none in progress. -/
theorem exec_starts (starts : startsPart c = true) (h : exec c s = .next t) :
    (∃ cause address rail faults loader hold,
      (faults = s.control.faults ∨ faults = FaultFile.empty) ∧
      t = { s.clearBlocks with
        loader := loader, hold := hold, control := Control.afterReset cause address rail faults }) ∨
    t = s ∨ ∃ memory, s.control.state = .starting ∧ Changes c (s.started memory) t := by
  cases c <;> simp only [startsPart, Bool.false_eq_true] at starts
  case reset cause straps => exact .inl (exec_resets (.inl ⟨_, _, rfl⟩) h)
  case heldInReset cause => exact .inl (exec_resets (.inr ⟨_, rfl⟩) h)
  case startingEnd memory =>
    obtain rfl := Host.Outcome.next.inj h
    refine .inr ?_
    split
    · next loading =>
      simp only [State.loading, Bool.and_eq_true, beq_iff_eq] at loading
      exact .inr ⟨memory, loading.1, endStarting_changes memory s⟩
    · exact .inl rfl

/-- What a reset leaves, what a load leaves before its notices, what every elementary change keeps, and what the queue of
commands plays no part in, every step keeps. -/
theorem step_keeps_of_changes {P : State → Prop} (queue : ∀ s rest, P s → P { s with pending := rest })
    (change : ∀ d s t, Change d s t → P s → P t)
    (reset : ∀ (s : State) cause address rail faults loader hold, P s →
      (faults = s.control.faults ∨ faults = FaultFile.empty) →
      P { s.clearBlocks with loader := loader, hold := hold, control := Control.afterReset cause address rail faults })
    (load : ∀ memory s, P s → P (s.started memory)) : ∀ s t, P s → step s = .next t → P t := by
  refine step_keeps queue change fun d s t starts h hp => ?_
  rcases exec_starts starts h with ⟨_, _, _, _, _, _, file, rfl⟩ | rfl | ⟨memory, -, more⟩
  · exact reset s _ _ _ _ _ _ hp file
  · exact hp
  · clear h
    induction more with
    | refl => exact load memory s hp
    | tail _ one ih => exact change d _ _ one ih

/-! ## Capacities (O55) -/

theorem push_length (f : Frame) (l : Link) (h : l.txQueue.length ≤ Config.txCapacity) :
    (l.push f).txQueue.length ≤ Config.txCapacity := by
  rcases Link.push_queue f l with ⟨queue, -, room⟩ | ⟨queue, -, -⟩ <;> rw [queue]
  · simpa using room
  · exact h

@[simp] theorem Link.push_rxQueue (f : Frame) (l : Link) : (l.push f).rxQueue = l.rxQueue := by
  unfold Link.push
  split <;> simp

@[simp] theorem Link.push_rx (f : Frame) (l : Link) : (l.push f).rx = l.rx := by
  unfold Link.push
  split <;> simp

@[simp] theorem Link.push_counts (f : Frame) (l : Link) : (l.push f).counts = l.counts := by
  unfold Link.push
  split <;> simp

/-- Different addresses, none of them the own one, are no more than fifteen. -/
theorem addresses_length {own : BitVec 4} {l : List (BitVec 4)} (distinct : l.Nodup) (other : own ∉ l) :
    l.length ≤ Config.peerCapacity := by
  have all : (own :: l).toFinset.card ≤ Fintype.card (BitVec 4) := Finset.card_le_univ _
  rw [List.toFinset_card_of_nodup (List.nodup_cons.2 ⟨other, distinct⟩)] at all
  rw [show Fintype.card (BitVec 4) = 16 from by decide] at all
  exact Nat.le_of_succ_le_succ all

/-- The peer table is sound by the addresses it holds. -/
theorem peersSound_iff : s.peersSound ↔
    ((s.pair.peers.map (·.address)).Nodup ∧ s.control.address ∉ s.pair.peers.map (·.address)) ∧
      ∀ f ∈ s.link.rxQueue, f.source ≠ s.control.address := by
  constructor
  · rintro ⟨-, distinct, other, waiting⟩
    exact ⟨⟨distinct, by simpa using other⟩, waiting⟩
  · rintro ⟨⟨distinct, other⟩, waiting⟩
    exact ⟨by simpa using addresses_length distinct other, distinct, by simpa using other, waiting⟩

@[simp] theorem takeHead_rxQueue (s : State) (src : BitVec 4) :
    (s.takeHead src).link.rxQueue = s.link.rxQueue.tail := by
  rw [takeHead_eq]
  split <;> rfl
@[simp] theorem takeHead_tracker (s : State) (src : BitVec 4) : (s.takeHead src).tracker = s.tracker := by
  rw [takeHead_eq]
  split <;> rfl
@[simp] theorem takeHead_faults (s : State) (src : BitVec 4) : (s.takeHead src).control.faults = s.control.faults := by
  rw [takeHead_eq]
  split <;> rfl
@[simp] theorem takeHead_notices (s : State) (src : BitVec 4) : (s.takeHead src).pair.notices = s.pair.notices := by
  rw [takeHead_eq]
  split <;> rfl
@[simp] theorem takeHead_own (s : State) (src : BitVec 4) : (s.takeHead src).pair.own = s.pair.own := by
  rw [takeHead_eq]
  split <;> rfl
@[simp] theorem takeHead_address (s : State) (src : BitVec 4) :
    (s.takeHead src).control.address = s.control.address := by
  rw [takeHead_eq]
  split <;> rfl

theorem Change.withinCapacity (h : Change c s t) (hs : s.withinCapacity) : t.withinCapacity := by
  obtain ⟨tx, rx, file, chains, notices, own, peers⟩ := hs
  have sound := peersSound_iff.1 peers
  cases h with
  | free | pins | odo | sched | pulser | judge | cover => exact ⟨tx, rx, file, chains, notices, own, peers⟩
  | tracker f k =>
    have fewer : (f s.tracker).chains.length ≤ s.tracker.chains.length := by simpa using k.numbers.length_le
    exact ⟨tx, rx, file, fewer.trans chains, notices, own, peers⟩
  | newChain ch room => exact ⟨tx, rx, file, by simpa using room, notices, own, peers⟩
  | pair f k =>
    refine ⟨tx, rx, file, chains, k.notices.trans (Nat.max_le.2 ⟨notices, le_rfl⟩),
      k.own.trans (Nat.max_le.2 ⟨own, le_rfl⟩), peersSound_iff.2 ?_⟩
    simpa only [State.modPair_pair, State.modPair_control, State.modPair_link, k.peers] using sound
  | meet f entry keep waits source new =>
    obtain ⟨⟨distinct, other⟩, waiting⟩ := sound
    refine ⟨by simpa [takeHead_room] using tx, ?_, ?_, ?_, ?_, ?_, peersSound_iff.2 ⟨⟨?_, ?_⟩, ?_⟩⟩
    · simp only [State.modPair_link, takeHead_rxQueue, List.length_tail]
      omega
    · simpa using file
    · simpa using chains
    · simpa using (List.length_filter_le _ _).trans notices
    · simpa using own
    · rw [State.modPair_pair, List.map_append, takeHead_addresses]
      exact List.nodup_append'.2 ⟨distinct, by simp, by simpa [source] using new⟩
    · rw [State.modPair_pair, State.modPair_control, List.map_append, takeHead_addresses, takeHead_address]
      simpa [source] using ⟨by simpa using other, (waiting f waits).symm⟩
    · intro g hg
      rw [State.modPair_control, takeHead_address]
      exact waiting g (List.mem_of_mem_tail (by simpa using hg))
  | push f =>
    refine ⟨push_length f _ tx, ?_, file, chains, notices, own, peersSound_iff.2 ?_⟩
    · simpa using rx
    · simpa using sound
  | count f => exact ⟨tx, rx, file, chains, notices, own, peers⟩
  | receive f room other =>
    refine ⟨tx, by simpa using room, file, chains, notices, own, peersSound_iff.2 ⟨sound.1, fun g hg => ?_⟩⟩
    rcases List.mem_append.1 hg with hg | hg
    · exact sound.2 g hg
    · rw [List.mem_singleton.1 hg]
      exact other
  | link f k =>
    exact ⟨k.txQueue.length_le.trans tx, k.rxQueue.length_le.trans rx, file, chains, notices, own,
      peersSound_iff.2 ⟨sound.1, fun g hg => sound.2 g (k.rxQueue.subset hg)⟩⟩
  | control f k =>
    refine ⟨tx, rx, k.records.trans (Nat.max_le.2 ⟨file, le_rfl⟩), chains, notices, own, peersSound_iff.2 ?_⟩
    simpa only [State.modControl_pair, State.modControl_control, State.modControl_link, k.address] using sound

/-- Settles O55: a reset empties everything but the fault file, a load touches none of it, and every elementary change
keeps the capacities. -/
theorem stepKeepsCapacities : Obligations.StepKeepsCapacities := by
  unfold Obligations.StepKeepsCapacities
  refine step_keeps_of_changes (fun _ _ => id) (fun _ _ _ => Change.withinCapacity) ?_ ?_
  · rintro s cause address rail faults loader hold ⟨-, -, file, -⟩ kept
    refine ⟨Nat.zero_le _, Nat.zero_le _, ?_, Nat.zero_le _, Nat.zero_le _, Nat.zero_le _, peersSound_iff.2 ?_⟩
    · rcases kept with rfl | rfl
      · exact file
      · exact Nat.zero_le _
    · simp [State.clearBlocks, Pairing.afterReset, Link.afterReset]
  · intro memory s h
    simpa [State.withinCapacity, State.peersSound, Link.activate] using h

/-! ## Chains and gaps in order (O56) -/

theorem Change.chainsInOrder (h : Change c s t) (hs : s.chainsInOrder) : t.chainsInOrder := by
  obtain ⟨order, below⟩ := hs
  have numbers : (s.tracker.chains.map (·.number)).Pairwise (· < ·) := List.pairwise_map.2 order
  cases h with
  | meet => exact ⟨by simpa using order, by simpa using below⟩
  | tracker f k =>
    refine ⟨List.pairwise_map.1 (numbers.sublist k.numbers), fun ch mem => ?_⟩
    obtain ⟨old, hold, e⟩ := List.mem_map.1 (k.numbers.subset (List.mem_map_of_mem mem))
    rcases k.next with next | empty
    · have : old.number < (f s.tracker).nextNumber := next ▸ below old hold
      exact e ▸ this
    · simp [empty] at mem
  | newChain ch room number =>
    constructor
    · simpa [List.pairwise_append] using ⟨order, fun a ha => number ▸ below a ha⟩
    · intro a ha
      rcases List.mem_append.1 ha with ha | ha
      · exact Nat.lt_succ_of_lt (below a ha)
      · rw [List.mem_singleton.1 ha, number]
        exact Nat.lt_succ_self _
  | _ => exact ⟨order, below⟩

theorem takeHead_cover (s : State) (src : BitVec 4) : (s.takeHead src).cover = s.cover := by
  rw [takeHead_eq]
  split <;> rfl

theorem Change.gapsConsistent (h : Change c s t) (hs : s.gapsConsistent) : t.gapsConsistent := by
  cases h with
  | meet =>
    intro e
    rw [State.modPair_cover, takeHead_cover]
    exact hs e
  | cover f k => exact fun e => k e (hs e)
  | _ => exact hs

theorem afterReset_chainsInOrder : Tracker.afterReset.chains = [] := rfl

theorem afterReset_gapsConsistent (e : Element) : (Coverage.afterReset.element.get e).consistent := by
  simp [ElementCover.consistent, Coverage.afterReset, ElementCover.fresh, Causes.empty, Causes.nonempty]

/-- Settles O56: a reset empties the table and the account, a load touches neither, and every elementary change keeps
both in order. -/
theorem stepKeepsChainsAndGapsInOrder : Obligations.StepKeepsChainsAndGapsInOrder := by
  unfold Obligations.StepKeepsChainsAndGapsInOrder
  intro s t order gaps
  refine step_keeps_of_changes (P := fun s => s.chainsInOrder ∧ s.gapsConsistent) (fun _ _ => id) ?_ ?_ ?_ s t
    ⟨order, gaps⟩
  · exact fun d s t h k => ⟨h.chainsInOrder k.1, h.gapsConsistent k.2⟩
  · intro s cause address rail faults loader hold _ _
    exact ⟨⟨List.Pairwise.nil, nofun⟩, afterReset_gapsConsistent⟩
  · intro memory s h
    simpa [State.chainsInOrder, State.gapsConsistent] using h

/-! ## The link and the transmitter (O57) -/

/-- Outside STARTING: the receiver is active and the transmitter agrees with its queue. -/
def State.linkSound (s : State) : Prop :=
  s.link.rx ≠ .inactive ∧ s.control.state ≠ .starting ∧ s.link.txAgrees

/-- With a frame queued, every transmitter state but IDLE agrees with the queue. -/
theorem Link.txAgrees_of_busy {l : Link} (busy : l.tx ≠ .idle) (queue : l.txQueue ≠ []) : l.txAgrees := by
  unfold Link.txAgrees
  split
  · contradiction
  · exact queue
  · exact queue
  · exact queue
  · trivial

theorem Link.txOnQueueing_busy {l : Link} (rx : l.rx ≠ .inactive) : l.txOnQueueing ≠ .idle := by
  unfold Link.txOnQueueing
  split
  · next h => exact h.resolve_right rx
  · split <;> nofun

theorem push_txAgrees (f : Frame) {l : Link} (rx : l.rx ≠ .inactive) (h : l.txAgrees) : (l.push f).txAgrees := by
  rw [Link.push_eq]
  split
  · exact Link.txAgrees_of_busy (Link.txOnQueueing_busy rx) (List.append_ne_nil_of_right_ne_nil _ (by simp))
  · exact h

theorem Change.linkSound (h : Change c s t) (hs : s.linkSound) : t.linkSound := by
  obtain ⟨rx, state, agrees⟩ := hs
  cases h with
  | meet f =>
    rw [State.linkSound, State.modPair_link, State.modPair_control, takeHead_eq]
    split <;> exact ⟨rx, state, agrees⟩
  | push f => exact ⟨by simpa using rx, state, push_txAgrees f rx agrees⟩
  | link f k => exact ⟨fun e => rx (k.rx e), state, k.tx agrees⟩
  | control f k => exact ⟨rx, fun e => state (k.state e), agrees⟩
  | _ => exact ⟨rx, state, agrees⟩

theorem Changes.linkSound (h : Changes c s t) (hs : s.linkSound) : t.linkSound := by
  induction h with
  | refl => exact hs
  | tail _ one ih => exact one.linkSound ih

/-- The blocks of a STARTING part stand at their values after reset. -/
def State.rests (s : State) : Prop :=
  s.control.state = .starting ∧ s.odo = Odometer.afterReset ∧ s.sched = Scheduler.afterReset ∧
    s.pulser = Pulser.afterReset ∧ s.tracker = Tracker.afterReset ∧ s.judge = Judge.afterReset ∧
    s.cover = Coverage.afterReset ∧ s.pair = Pairing.afterReset ∧ s.link = Link.afterReset ∧
    s.control.runEndPending = false

/-- The three invariants of the link say that the part rests in STARTING, and that its link is sound outside. -/
theorem linkInvariants_iff : (s.linkActiveOutsideStarting ∧ s.atRestInStarting ∧ s.link.txAgrees) ↔
    s.rests ∨ s.linkSound := by
  constructor
  · rintro ⟨active, rest, agrees⟩
    by_cases h : s.control.state = .starting
    · exact .inl ⟨h, rest h⟩
    · exact .inr ⟨fun e => h (active.1 e), h, agrees⟩
  · rintro (⟨state, rest⟩ | ⟨rx, state, agrees⟩)
    · have ⟨_, _, _, _, _, _, _, link, _⟩ := rest
      exact ⟨⟨fun _ => state, fun _ => by rw [link]; rfl⟩, fun _ => rest, by rw [link]; rfl⟩
    · exact ⟨⟨fun e => absurd e rx, fun e => absurd e state⟩, fun e => absurd e state, agrees⟩

/-- An INACTIVE receiver with nothing waiting leaves every frame row without effect. -/
theorem dispatchAs_inactive (s : State) (d : Instr) (work : State → State) (rx : s.link.rx = .inactive)
    (queue : s.link.rxQueue = []) : s.dispatchAs d work = s := by
  have silent : ∀ f, s.hearFrame f = s := fun f => by simp [State.hearFrame, rx]
  unfold State.dispatchAs State.headReady
  cases commandFrame d <;> simp [queue, silent]

/-- At rest only the sensor lines are noted, and no command but the three that start the part does more. -/
theorem exec_rests (hs : s.rests) (starts : startsPart c = false) (h : exec c s = .next t) :
    ∃ p, t = { s with pins := p } := by
  obtain ⟨state, odo, sched, pulser, -, -, -, -, link, pending⟩ := hs
  have inactive : s.odo.active = false := by rw [odo]; rfl
  have rx : s.link.rx = .inactive := by rw [link]; rfl
  have tx : s.link.tx = .idle := by rw [link]; rfl
  have queue : s.link.rxQueue = [] := by rw [link]; rfl
  have off : s.sched.state = .off := by rw [sched]; rfl
  have dark : s.pulser.hv = .off := by rw [pulser]; rfl
  cases c <;> obtain rfl := Host.Outcome.next.inj h
  case reset | startingEnd | heldInReset => exact nomatch starts
  case encoderLineChange line level => exact ⟨s.pins.setEncoder line level, by simp [State.encoderLine, inactive]⟩
  case liftLineChange level => exact ⟨{ s.pins with lift := level }, by simp [State.liftLine, inactive]⟩
  all_goals refine ⟨s.pins, ?_⟩
  case encoderLevelAccepted | stillness | liftRecognised => simp [inactive]
  case listeningEnd => simp [State.onListeningEnd, off]
  case recoveryEnd => simp [State.onRecoveryEnd, off]
  case settleComplete => simp [State.onSettleComplete, dark]
  case runEnd => simp [State.runEndDue, pending]
  case lineIdle => simp [State.onLineIdle, rx]
  case frameEnd => simp [State.onFrameEnd, rx]
  case arbitrationLost => simp [State.onArbitrationLost, State.drivenBit, tx]
  case transmitError => simp [State.onTransmitError, tx]
  case stuckLine => simp [State.onStuckLine, rx]
  case haltSymbol | noisePulse | formError | leadMark | bitReceived | waitForIdleRestart => simp [State.onPulse, rx]
  all_goals exact dispatchAs_inactive s _ _ rx queue

theorem tick_rests (hs : s.rests) : s.tick.rests := by
  obtain ⟨state, odo, sched, pulser, tracker, judge, cover, pair, link, pending⟩ := hs
  refine ⟨state, ?_, ?_, ?_, tracker, judge, cover, pair, ?_, pending⟩
  · simp [State.tick, odo, Odometer.tick, Odometer.afterReset]
  · simp [State.tick, sched, Scheduler.afterReset, SchedState.tick]
  · simp [State.tick, pulser, Pulser.afterReset, HighVoltage.tick]
  · simp [State.tick, link, Link.afterReset, Link.tick]

/-- A load makes the link sound: the receiver seeks, and the transmitter of an empty queue is IDLE. -/
theorem started_linkSound (memory : List Byte) (hs : s.rests) : (s.started memory).linkSound := by
  obtain ⟨-, -, -, -, -, -, -, -, link, -⟩ := hs
  refine ⟨by simp [Link.activate], ?_, ?_⟩
  · rw [started_control]
    rcases Control.load_state (checkImage (loadedBytes memory)) s.control with h | h <;> rw [h] <;> nofun
  · simp [link, Link.afterReset, Link.activate, Link.txAgrees]

/-- Settles O57: a part at rest stays so until a load starts it, which makes its link sound, and every elementary change
keeps a sound link. -/
theorem stepKeepsTheLinkSound : Obligations.StepKeepsTheLinkSound := by
  unfold Obligations.StepKeepsTheLinkSound
  intro s t active rest agrees h
  rw [linkInvariants_iff]
  have worked (d : Instr) (u : State) (hu : u.rests ∨ u.linkSound) (h : exec d u = .next t) : t.rests ∨ t.linkSound := by
    cases kind : startsPart d with
    | true =>
      rcases exec_starts kind h with ⟨_, _, _, _, _, _, -, rfl⟩ | rfl | ⟨memory, starting, more⟩
      · exact .inl ⟨rfl, rfl, rfl, rfl, rfl, rfl, rfl, rfl, rfl, rfl⟩
      · exact hu
      · rcases hu with hu | ⟨-, state, -⟩
        · exact .inr (more.linkSound (started_linkSound memory hu))
        · exact absurd starting state
    | false =>
      rcases hu with hu | hu
      · obtain ⟨p, rfl⟩ := exec_rests hu kind h
        exact .inl hu
      · exact .inr ((exec_changes u kind h).linkSound hu)
  have hs := linkInvariants_iff.1 ⟨active, rest, agrees⟩
  obtain ⟨queue, ⟨d, run⟩ | rfl | rfl⟩ := step_cases s h
  · exact worked d { s with pending := queue } hs run
  · exact hs
  · exact hs.imp tick_rests (tick_changes (c := .stillness) s).linkSound

/-! ## Ranges (O58) -/

theorem countKind_inRange (kind : BitVec 6) {d : Drops} (h : d.inRange) : (d.countKind kind).inRange := by
  obtain ⟨indication, gap, span, other⟩ := h
  unfold Drops.countKind
  split
  · exact ⟨bump_le _, gap, span, other⟩
  · split
    · exact ⟨indication, bump_le _, span, other⟩
    · split
      · exact ⟨indication, gap, bump_le _, other⟩
      · exact ⟨indication, gap, span, bump_le _⟩

theorem push_drops_inRange (f : Frame) {l : Link} (h : l.drops.inRange) : (l.push f).drops.inRange := by
  rcases Link.push_queue f l with ⟨-, drops, -⟩ | ⟨-, drops, -⟩ <;> rw [drops]
  · exact h
  · exact countKind_inRange _ h

theorem Change.countersInRange (h : Change c s t) (hs : s.countersInRange) : t.countersInRange := by
  have top {a b : Nat} (bound : b ≤ max a Config.counterMax) (ha : a ≤ Config.counterMax) : b ≤ Config.counterMax :=
    bound.trans (Nat.max_le.2 ⟨ha, le_rfl⟩)
  obtain ⟨counts, drops, rejected, suppressed, excess, discarded, dropped, lost, first⟩ := hs
  cases h with
  | tracker f k =>
    exact ⟨counts, drops, rejected, suppressed, excess, top k.discarded discarded, top k.dropped dropped, lost, first⟩
  | judge f k =>
    exact ⟨counts, drops, top k.rejected rejected, top k.suppressed suppressed, top k.excess excess, discarded, dropped,
      lost, first⟩
  | pair f k =>
    exact ⟨counts, drops, rejected, suppressed, excess, discarded, dropped, top k.lost lost, first⟩
  | meet f =>
    rw [State.countersInRange, State.modPair_link, State.modPair_control, State.modPair_judge, State.modPair_tracker,
      State.modPair_pair, takeHead_eq]
    split <;> exact ⟨counts, drops, rejected, suppressed, excess, discarded, dropped, lost, first⟩
  | push f =>
    exact ⟨by simpa using counts, push_drops_inRange f drops, rejected, suppressed, excess, discarded, dropped, lost,
      first⟩
  | count f k => exact ⟨k counts, drops, rejected, suppressed, excess, discarded, dropped, lost, first⟩
  | link f k =>
    refine ⟨?_, ?_, rejected, suppressed, excess, discarded, dropped, lost, first⟩
    · rw [State.modLink_link, k.counts]
      exact counts
    · rw [State.modLink_link, k.drops]
      exact drops
  | control f k =>
    exact ⟨counts, drops, rejected, suppressed, excess, discarded, dropped, lost, top k.firstIndex first⟩
  | _ => exact ⟨counts, drops, rejected, suppressed, excess, discarded, dropped, lost, first⟩

theorem Change.odometerInRange (h : Change c s t) (hs : s.odometerInRange) : t.odometerInRange := by
  obtain ⟨pos, travel⟩ := hs
  cases h with
  | odo f p q => exact ⟨p pos, q travel⟩
  | meet =>
    rw [State.odometerInRange, State.modPair_odo, takeHead_eq]
    split <;> exact ⟨pos, travel⟩
  | _ => exact ⟨pos, travel⟩

theorem Change.sequenceInRange (h : Change c s t) (hs : s.sequenceInRange) : t.sequenceInRange := by
  cases h with
  | judge f k =>
    rcases k.sequence with same | range
    · rw [State.sequenceInRange, State.modJudge_judge, same]
      exact hs
    · exact range
  | meet =>
    rw [State.sequenceInRange, State.modPair_judge, takeHead_eq]
    split <;> exact hs
  | _ => exact hs

theorem Change.schedInRange (h : Change c s t) (hs : s.schedInRange) : t.schedInRange := by
  have top {a b m : Nat} (bound : b ≤ max a m) (ha : a ≤ m) : b ≤ m := bound.trans (Nat.max_le.2 ⟨ha, le_rfl⟩)
  cases h with
  | sched f skip grid => exact fun e => ⟨top (skip e) (hs e).1, top (grid e) (hs e).2.1, (hs e).2.2⟩
  | pulser f bad => exact fun e => ⟨(hs e).1, (hs e).2.1, top (bad e) (hs e).2.2⟩
  | meet =>
    intro e
    rw [State.modPair_sched, State.modPair_pulser, takeHead_eq]
    split <;> exact hs e
  | _ => exact hs

/-- Settles O58: a reset leaves zeros and the fault file's index, a load leaves every count, and every elementary change
keeps the ranges. -/
theorem stepKeepsRanges : Obligations.StepKeepsRanges := by
  unfold Obligations.StepKeepsRanges
  intro s t counters odometer sequence sched
  refine step_keeps_of_changes
    (P := fun s => s.countersInRange ∧ s.odometerInRange ∧ s.sequenceInRange ∧ s.schedInRange) (fun _ _ => id) ?_ ?_ ?_
    s t ⟨counters, odometer, sequence, sched⟩
  · rintro d s t h ⟨counters, odometer, sequence, sched⟩
    exact ⟨h.countersInRange counters, h.odometerInRange odometer, h.sequenceInRange sequence, h.schedInRange sched⟩
  · rintro s cause address rail faults loader hold ⟨⟨-, -, -, -, -, -, -, -, first⟩, -⟩ kept
    have index : faults.firstIndex ≤ Config.counterMax := by
      rcases kept with rfl | rfl
      · exact first
      · exact Nat.zero_le _
    refine ⟨?_, ?_, ?_, fun e => ?_⟩
    · simpa [State.countersInRange, State.clearBlocks, Link.afterReset, Outcomes.inRange, Outcomes.zero, Drops.inRange,
        Drops.zero, Judge.afterReset, Tracker.afterReset, Pairing.afterReset, Control.afterReset] using index
    · simp [State.odometerInRange, State.clearBlocks, Odometer.afterReset, FinePos.inRange, Config.positionMin,
        Config.positionMax]
    · simp [State.sequenceInRange, State.clearBlocks, Judge.afterReset]
    · simp [State.clearBlocks, Scheduler.afterReset, Pulser.afterReset]
  · intro memory s h
    simpa [State.countersInRange, State.odometerInRange, State.sequenceInRange, State.schedInRange, Link.activate,
      started_odo_place] using h

/-- Settles O59: what O55 to O58 ask of a state holds of the values after reset. -/
theorem resetMeetsTheInvariants : Obligations.ResetMeetsTheInvariants := by
  unfold Obligations.ResetMeetsTheInvariants
  have rests : State.reset.rests := ⟨rfl, rfl, rfl, rfl, rfl, rfl, rfl, rfl, rfl, rfl⟩
  obtain ⟨active, rest, agrees⟩ := linkInvariants_iff.2 (.inl rests)
  refine ⟨⟨by decide, by decide, by decide, by decide, by decide, by decide, peersSound_iff.2 ⟨by decide, nofun⟩⟩,
    ⟨List.Pairwise.nil, nofun⟩, afterReset_gapsConsistent, active, rest, agrees, ?_, ?_, ⟨by decide, by decide⟩, fun e => ?_⟩
  · simp [State.countersInRange, State.reset, Link.afterReset, Outcomes.inRange, Outcomes.zero, Drops.inRange,
      Drops.zero, Judge.afterReset, Tracker.afterReset, Pairing.afterReset, Control.afterReset, FaultFile.empty]
  · simp [State.odometerInRange, State.reset, Odometer.afterReset, FinePos.inRange, Config.positionMin,
      Config.positionMax]
  · simp [State.reset, Scheduler.afterReset, Pulser.afterReset]

/-! ## The setup (O60) -/

/-- What command `c` leaves of the setup, the hold, the loader, the queue, the run number and the zones. -/
structure State.SetupStands (c : Instr) (s t : State) : Prop where
  setup : s.sameSetup t
  hold : t.hold = s.hold
  loader : t.loader = s.loader
  pending : t.pending = s.pending
  runNumber : (∀ src dest n start, c ≠ .run src dest n start) → t.control.runNumber = s.control.runNumber
  zones : (∀ src dest index base limit, c ≠ .zone src dest index base limit) → t.judge.zones = s.judge.zones

theorem State.SetupStands.refl (c : Instr) (s : State) : s.SetupStands c s :=
  ⟨⟨rfl, rfl, rfl, rfl, rfl, rfl, rfl⟩, rfl, rfl, rfl, fun _ => rfl, fun _ => rfl⟩

theorem State.SetupStands.trans {u : State} (h : s.SetupStands c t) (k : t.SetupStands c u) : s.SetupStands c u := by
  obtain ⟨a1, a2, a3, a4, a5, a6, a7⟩ := h.setup
  obtain ⟨b1, b2, b3, b4, b5, b6, b7⟩ := k.setup
  exact ⟨⟨b1.trans a1, b2.trans a2, b3.trans a3, b4.trans a4, b5.trans a5, b6.trans a6, b7.trans a7⟩,
    k.hold.trans h.hold, k.loader.trans h.loader, k.pending.trans h.pending,
    fun no => (k.runNumber no).trans (h.runNumber no), fun no => (k.zones no).trans (h.zones no)⟩

theorem Change.setupStands (h : Change c s t) : s.SetupStands c t := by
  cases h with
  | judge f k =>
    refine { State.SetupStands.refl c s with zones := fun no => ?_ }
    rcases k.zones with same | ⟨src, dest, index, base, limit, e⟩
    · exact same
    · exact absurd e (no src dest index base limit)
  | control f k =>
    refine ⟨⟨k.address, k.rail, k.cause, k.config, k.configuredMask, k.faultOffset, k.imageId⟩, rfl, rfl, rfl, fun no => ?_,
      fun _ => rfl⟩
    rcases k.runNumber with same | ⟨src, dest, n, start, e⟩
    · exact same
    · exact absurd e (no src dest n start)
  | meet =>
    rw [takeHead_eq]
    split <;> exact ⟨⟨rfl, rfl, rfl, rfl, rfl, rfl, rfl⟩, rfl, rfl, rfl, fun _ => rfl, fun _ => rfl⟩
  | _ => exact ⟨⟨rfl, rfl, rfl, rfl, rfl, rfl, rfl⟩, rfl, rfl, rfl, fun _ => rfl, fun _ => rfl⟩

/-- Settles O60, from the elementary changes of every other command. -/
theorem setupStandsUntilTheNextReset : Obligations.SetupStandsUntilTheNextReset := by
  unfold Obligations.SetupStandsUntilTheNextReset
  intro c s t starts h
  have stands : s.SetupStands c t := by
    have changes := exec_changes s starts h
    clear h
    induction changes with
    | refl => exact .refl c s
    | tail _ one ih => exact ih.trans one.setupStands
  exact ⟨stands.setup, stands.hold, stands.loader, stands.pending, stands.runNumber, stands.zones⟩

end Sys2Proof.Machine
end

section
/-! SUPPORT. The payload layouts of chapter 10 read back field by field, the bits of a frame judged, and the notices the
part sends as the statements name them; then the theorems that settle O53 and O54. -/

namespace Sys2Proof.Machine

/-! ## Multi-byte fields (R176) -/

theorem bytes48_joined (v : BitVec 48) :
    (v.extractLsb' 40 8 ++ v.extractLsb' 32 8) ++
      ((v.extractLsb' 24 8 ++ v.extractLsb' 16 8) ++ (v.extractLsb' 8 8 ++ v.extractLsb' 0 8)) = v := by
  iterate 5 rw [BitVec.extractLsb'_append_extractLsb'_eq_extractLsb' (by decide)]
  exact BitVec.extractLsb'_eq_self

theorem bytes104_joined (v : BitVec 104) :
    v.extractLsb' 96 8 ++
      ((v.extractLsb' 88 8 ++ v.extractLsb' 80 8) ++
        ((v.extractLsb' 72 8 ++ v.extractLsb' 64 8) ++ (v.extractLsb' 56 8 ++ v.extractLsb' 48 8))) ++
      ((v.extractLsb' 40 8 ++ v.extractLsb' 32 8) ++
        ((v.extractLsb' 24 8 ++ v.extractLsb' 16 8) ++ (v.extractLsb' 8 8 ++ v.extractLsb' 0 8))) = v := by
  iterate 12 rw [BitVec.extractLsb'_append_extractLsb'_eq_extractLsb' (by decide)]
  exact BitVec.extractLsb'_eq_self

/-- A mask byte holds element e in bit e. -/
theorem maskByte_bit (m : ElementSet) (e : Element) : (maskByte m).getLsbD e.val = m.get e := by
  obtain ⟨b0, b1, b2, b3, b4, b5, b6, b7⟩ := m
  revert b0 b1 b2 b3 b4 b5 b6 b7 e
  decide

/-! ## The payloads read back -/

theorem indicationHead_fields : ∀ (element : BitVec 3) (rail bwl : Bool) (state : BitVec 2) (saturated : Bool),
    let b : Byte := element ++ flagBit rail ++ flagBit bwl ++ state ++ flagBit saturated
    b.extractLsb' 5 3 = element ∧ b.getLsbD 4 = rail ∧ b.getLsbD 3 = bwl ∧ b.extractLsb' 1 2 = state ∧
      b.getLsbD 0 = saturated := by decide

theorem indicationKey_fields : ∀ (key : BitVec 4) (sense zone : BitVec 2),
    let b : Byte := key ++ sense ++ zone
    b.extractLsb' 4 4 = key ∧ b.extractLsb' 2 2 = sense ∧ b.extractLsb' 0 2 = zone := by decide

theorem indicationReference_field : ∀ a : BitVec 4, (a ++ (0 : BitVec 4) : BitVec 8).extractLsb' 4 4 = a := by decide

theorem decodeIndication_indicationPayload (f : IndicationFields) : decodeIndication (indicationPayload f) = f := by
  obtain ⟨sequence, element, rail, bwl, state, saturated, key, sense, zone, x, size, peak, length, address, reference⟩ := f
  obtain ⟨helement, hrail, hbwl, hstate, hsaturated⟩ := indicationHead_fields element rail bwl state saturated
  obtain ⟨hkey, hsense, hzone⟩ := indicationKey_fields key sense zone
  rw [decodeIndication, IndicationFields.mk.injEq]
  exact ⟨bytes16_joined sequence, helement, hrail, hbwl, hstate, hsaturated, hkey, hsense, hzone, bytes32_joined x,
    bytes16_joined size, rfl, rfl, indicationReference_field address, bytes16_joined reference⟩

theorem gapHead_fields : ∀ (close : Bool) (cause : BitVec 3),
    let b : Byte := flagBit close ++ (0 : BitVec 4) ++ cause
    b.getLsbD 7 = close ∧ b.extractLsb' 0 3 = cause := by decide

theorem decodeGap_gapPayload (f : GapFields) : decodeGap (gapPayload f) = f := by
  obtain ⟨close, cause, mask, startX, endX⟩ := f
  obtain ⟨hclose, hcause⟩ := gapHead_fields close cause
  rw [decodeGap, GapFields.mk.injEq]
  exact ⟨hclose, hcause, rfl, bytes32_joined startX, bytes32_joined endX⟩

theorem decodeSpan_spanPayload (f : SpanFields) : decodeSpan (spanPayload f) = f := by
  obtain ⟨index, endX, tested⟩ := f
  rw [decodeSpan, SpanFields.mk.injEq]
  exact ⟨bytes16_joined index, bytes32_joined endX, rfl⟩

theorem announceHead_fields : ∀ (fresh : Bool) (state : BitVec 3) (cause : BitVec 2) (rail : Bool),
    let b : Byte := flagBit fresh ++ state ++ cause ++ flagBit rail ++ (0 : BitVec 1)
    b.getLsbD 7 = fresh ∧ b.extractLsb' 4 3 = state ∧ b.extractLsb' 2 2 = cause ∧ b.getLsbD 1 = rail := by decide

/-- Six bits past the low end of a word are six bits of its high end. -/
theorem sixBits_append {v w k : Nat} (a : BitVec v) (b : BitVec w) (h : w ≤ k) :
    (a ++ b).extractLsb' k 6 = a.extractLsb' (k - w) 6 := BitVec.extractLsb'_append_eq_of_le h

theorem descriptorWord_field (d : Eight (BitVec 6)) (e : Element) :
    (descriptorWord d).extractLsb' (42 - 6 * e.val) 6 = d.get e := by
  have last {v : Nat} (a : BitVec v) (b : BitVec 6) : (a ++ b).extractLsb' 0 6 = b :=
    BitVec.extractLsb'_append_eq_right
  unfold descriptorWord
  fin_cases e
  · iterate 7 rw [sixBits_append _ _ (by decide)]
    exact BitVec.extractLsb'_eq_self
  · iterate 6 rw [sixBits_append _ _ (by decide)]
    exact last _ _
  · iterate 5 rw [sixBits_append _ _ (by decide)]
    exact last _ _
  · iterate 4 rw [sixBits_append _ _ (by decide)]
    exact last _ _
  · iterate 3 rw [sixBits_append _ _ (by decide)]
    exact last _ _
  · iterate 2 rw [sixBits_append _ _ (by decide)]
    exact last _ _
  · rw [sixBits_append _ _ (by decide)]
    exact last _ _
  · exact last _ _

theorem decodeAnnounce_announcePayload (f : AnnounceFields) : decodeAnnounce (announcePayload f) = f := by
  obtain ⟨fresh, state, cause, rail, runNumber, imageId, mask, descriptors⟩ := f
  obtain ⟨hfresh, hstate, hcause, hrail⟩ := announceHead_fields fresh state cause rail
  have word : word48At (announcePayload ⟨fresh, state, cause, rail, runNumber, imageId, mask, descriptors⟩) 6 =
      descriptorWord descriptors := bytes48_joined _
  rw [decodeAnnounce, AnnounceFields.mk.injEq]
  refine ⟨hfresh, hstate, hcause, hrail, bytes16_joined runNumber, bytes16_joined imageId, rfl,
    Eight.ext_get fun e => ?_⟩
  rw [Eight.get_ofFn, word]
  exact descriptorWord_field descriptors e

theorem decodeStatus_statusPayload (f : StatusFields) : decodeStatus (statusPayload f) = f := by
  obtain ⟨page, body⟩ := f
  rw [decodeStatus, StatusFields.mk.injEq]
  exact ⟨rfl, bytes104_joined body⟩

/-! ## Frames read back as their commands (O53) -/

theorem flushPeer_field : ∀ peer : BitVec 4, ((0 : BitVec 4) ++ peer : BitVec 8).extractLsb' 0 4 = peer := by decide

/-- A kind code of no row of Table 8-5 is none of the codes. -/
theorem kind_ne_of_unknown {kind code : BitVec 6} (unknown : knownKind kind = false) (known : knownKind code = true) :
    kind ≠ code := by
  rintro rfl
  exact Bool.false_ne_true (unknown.symm.trans known)

theorem frameCommand_unknown {f : Frame} (unknown : knownKind f.kind = false) :
    frameCommand f = .unknownKind f.source f.kind f.payload := by
  have no {code : BitVec 6} (known : knownKind code = true) : ¬ f.kind = code := kind_ne_of_unknown unknown known
  unfold frameCommand
  iterate 13 rw [if_neg (no rfl)]

/-- Settles O53: each payload is read back field by field, and an unknown kind is none of the known codes. -/
theorem framesReadBackAsTheirCommands : Obligations.FramesReadBackAsTheirCommands := by
  unfold Obligations.FramesReadBackAsTheirCommands
  intro c f formed h
  cases c <;> simp only [commandFrame, Option.some.injEq, reduceCtorEq] at h <;> subst h
  case stop | halt | clear | query => rfl
  case run src dest n start =>
    exact congrArg₂ (Instr.run src dest) (bytes16_joined n) (bytes32_joined start)
  case zone src dest index base limit =>
    exact congrArg₂ (Instr.zone src dest index) (bytes32_joined base) (bytes32_joined limit)
  case flush src dest scope peer => exact congrArg (Instr.flush src dest scope) (flushPeer_field peer)
  case announce src g => exact congrArg (Instr.announce src) (decodeAnnounce_announcePayload g)
  case indication src g => exact congrArg (Instr.indication src) (decodeIndication_indicationPayload g)
  case gap src g => exact congrArg (Instr.gap src) (decodeGap_gapPayload g)
  case span src g => exact congrArg (Instr.span src) (decodeSpan_spanPayload g)
  case fault src g => exact congrArg (Instr.fault src) (decodeFault_faultPayload g)
  case status src g => exact congrArg (Instr.status src) (decodeStatus_statusPayload g)
  case unknownKind src kind payload =>
    have unknown : knownKind kind = false := by
      simp only [Instr.wellFormed, Bool.and_eq_true, Bool.not_eq_true'] at formed
      exact formed.1
    exact frameCommand_unknown unknown

/-! ## Bits read back as their frame (O54) -/

theorem byteOfBits_byteBits : ∀ b : Byte,
    byteOfBits (b.getLsbD 7) (b.getLsbD 6) (b.getLsbD 5) (b.getLsbD 4) (b.getLsbD 3) (b.getLsbD 2) (b.getLsbD 1)
      (b.getLsbD 0) = b := by decide

theorem bytesOfBits_byteBits (bs : List Byte) : bytesOfBits (bs.flatMap byteBits) = some bs := by
  induction bs with
  | nil => rfl
  | cons b bs ih =>
    have next : bytesOfBits ((b :: bs).flatMap byteBits) =
        (bytesOfBits (bs.flatMap byteBits)).map fun l =>
          byteOfBits (b.getLsbD 7) (b.getLsbD 6) (b.getLsbD 5) (b.getLsbD 4) (b.getLsbD 3) (b.getLsbD 2) (b.getLsbD 1)
            (b.getLsbD 0) :: l := rfl
    rw [next, ih, byteOfBits_byteBits, Option.map_some]

theorem kindRow_length : ∀ r ∈ kindTable, r.length ≤ 15 := by decide

theorem length_of_lengthOk {kind : BitVec 6} {n : Nat} (h : lengthOk kind n = true) : n ≤ 15 := by
  unfold lengthOk at h
  split at h
  · next r row =>
    rw [beq_iff_eq.1 h]
    exact kindRow_length r (kindRow_eq_some_iff.1 row).1
  · exact of_decide_eq_true h

theorem frameHead_fields : ∀ (priority : BitVec 2) (kind : BitVec 6),
    (priority ++ kind : BitVec 8).extractLsb' 0 6 = kind ∧ (priority ++ kind : BitVec 8).extractLsb' 6 2 = priority := by
  decide

theorem frameSource_fields : ∀ source n : BitVec 4,
    (source ++ n : BitVec 8).extractLsb' 0 4 = n ∧ (source ++ n : BitVec 8).extractLsb' 4 4 = source := by decide

/-- Settles O54: the bytes come back from their bits, and every check passes on them. -/
theorem bitsReadBackAsTheirFrame : Obligations.BitsReadBackAsTheirFrame := by
  unfold Obligations.BitsReadBackAsTheirFrame
  rintro ⟨priority, kind, source, payload⟩ ok
  have short : payload.length ≤ 15 := length_of_lengthOk ok
  obtain ⟨hkind, hpriority⟩ := frameHead_fields priority kind
  obtain ⟨hlength, hsource⟩ := frameSource_fields source (BitVec.ofNat 4 payload.length)
  have length : (BitVec.ofNat 4 payload.length).toNat = payload.length := by
    rw [BitVec.toNat_ofNat]
    omega
  simp only [judgeBits, Frame.bits, bytesOfBits_byteBits, Frame.bytes, Frame.checked, List.cons_append, hlength, length,
    hkind, hpriority, hsource, List.length_append, List.length_singleton, List.take_left, if_true, ok]
  simp [byteAt]

/-! ## The part's own notices, as the statements name them -/

section
variable (s : State)

theorem descriptor_fields : ∀ (key : BitVec 4) (sense : BitVec 2),
    (key ++ sense : BitVec 6).extractLsb' 2 4 = key ∧ (key ++ sense : BitVec 6).extractLsb' 0 2 = sense := by decide

theorem senseCode_senseOfSine (sine : Int) :
    senseCode (senseOfSine sine) = if 0 < sine then 1 else if sine < 0 then 2 else 0 := by
  unfold senseOfSine
  split
  · rfl
  · split <;> rfl

/-- The own ANNOUNCE announces station control as it stands. -/
theorem announceNotice_announces (fresh : Bool) : (s.announceNotice fresh).announces s.control fresh := by
  unfold Frame.announces State.announceNotice frameOf
  rw [decodeAnnounce_announcePayload]
  refine ⟨rfl, rfl, rfl, rfl, rfl, rfl, rfl, rfl, rfl, fun e => ⟨maskByte_bit _ e, ?_, ?_⟩⟩
  · rw [Eight.get_ofFn, (descriptor_fields _ _).1, State.announcedKey]
    split <;> rfl
  · rw [Eight.get_ofFn, (descriptor_fields _ _).2, State.announcedSense]
    split
    · exact senseCode_senseOfSine _
    · rfl

theorem statusHead_fields : ∀ (state : BitVec 3) (cause : BitVec 2) (overflow : Bool),
    let b : Byte := state.setWidth 4 ++ cause ++ flagBit overflow ++ (0 : BitVec 1)
    b.extractLsb' 4 4 = state.setWidth 4 ∧ b.extractLsb' 2 2 = cause ∧ b.getLsbD 1 = overflow ∧ b.getLsbD 0 = false := by
  decide

/-- STATUS page 0 shows the station state. -/
theorem statusNotice_showsState : (s.statusNotice 0).showsState s.control.state :=
  ⟨rfl, rfl, rfl, (statusHead_fields _ _ _).1⟩

/-- The INDICATION notice of an own indication carries every field of it and its outcome. -/
theorem indicationNotice_indicates (i : Indication) (p : PairState) :
    (s.indicationNotice i p).indicates s.control.address i p := by
  unfold Frame.indicates State.indicationNotice frameOf
  rw [decodeIndication_indicationPayload]
  refine ⟨rfl, rfl, rfl, rfl, rfl, rfl, rfl, rfl, rfl, ?_, ?_⟩
  · obtain ⟨_, _, _, _, _, _, body⟩ := i
    cases body <;> exact ⟨rfl, rfl, rfl, rfl, rfl, rfl⟩
  · cases p <;> exact ⟨rfl, rfl, rfl⟩

/-- The SPAN notice of a stretch shows its length's tested shares. -/
theorem spanNotice_showsSpan (length : Nat) :
    (s.spanNotice length).showsSpan s length fun e => (s.cover.element.get e).gapTravel := by
  unfold Frame.showsSpan State.spanNotice frameOf
  rw [decodeSpan_spanPayload]
  refine ⟨rfl, rfl, rfl, rfl, rfl, fun e => ?_⟩
  rw [Eight.get_ofFn]
  rfl
end

end Sys2Proof.Machine
end

section
/-! SUPPORT. A notice queued or dropped, the head of the receive queue taken, and the requests and notices of other
participants; then the theorems that settle O20, O22, O23, O26 to O35 and O36. -/

namespace Sys2Proof.Machine

variable {c : Instr} {f : Frame} {rest : List Frame} {s : State}

/-! ## A notice queued or dropped (R148, R149) -/

theorem append_fits (f : Frame) (room : s.hasRoomFor 1) : s.append f = { s with link := s.link.queueing [f] } := by
  have below : s.link.txQueue.length < Config.txCapacity := room
  rw [append_room s f below, State.modLink, Link.push_eq, if_pos below]

theorem append_dropped (f : Frame) (full : 24 ≤ s.link.txQueue.length) :
    s.append f = s.dropping (s.link.drops.countKind f.kind) := by
  have above : ¬ s.link.txQueue.length < Config.txCapacity := Nat.not_lt.2 full
  obtain ⟨odo, sched, pulser, tracker, judge, cover, pair, link, control, loader, hold, pins, free, pending⟩ := s
  obtain ⟨state, address, rail, cause, config, cmask, emask, offset, image, run, pend, faults, episodes, still⟩ := control
  obtain ⟨records, overflow, first⟩ := faults
  obtain ⟨chainFull, txqFull, overrun⟩ := episodes
  cases txqFull with
  | true =>
    rw [append_full_marked _ _ above rfl, State.modLink, Link.push_eq, if_neg above]
    rfl
  | false =>
    rw [append_full_clear _ _ above rfl, State.modLink, Link.push_eq, if_neg above]
    cases overflow with
    | true => rfl
    | false =>
      by_cases file : records.length < 8
      · have filed : records.length < Config.faultCapacity := file
        simp only [State.beginTxqFull, State.faultNoticeFor, State.fileFault, State.markTxqFull, State.modControl, filed,
          if_true, if_false, Bool.false_eq_true, State.modLink, State.dropping, Nat.not_le.2 file, Bool.not_false,
          Bool.and_self, Bool.not_true]
        rw [Link.push_eq, if_neg above]
        rfl
      · have filed : ¬ records.length < Config.faultCapacity := file
        simp only [State.beginTxqFull, State.faultNoticeFor, State.fileFault, State.markTxqFull, State.modControl, filed,
          if_true, if_false, Bool.false_eq_true, State.modLink, State.dropping, Nat.not_lt.1 file, Bool.not_false,
          Bool.and_self, Bool.not_true]
        rw [Link.push_eq, if_neg above]
        rfl

/-- Settles O36, from the two outcomes of queueing a notice and from the states of the receiver. -/
theorem queuedFramesStartOnAnIdleLine : Obligations.QueuedFramesStartOnAnIdleLine := by
  unfold Obligations.QueuedFramesStartOnAnIdleLine
  refine ⟨fun f s => ⟨append_fits f, append_dropped f⟩, fun dominant s => ⟨?_, ?_⟩⟩
  · intro listens silent
    have acts : s.onLineIdle dominant = s.modLink (Link.becomeIdle dominant) := by
      rcases listens with rx | rx <;> simp [State.onLineIdle, rx, silent]
    have tx : s.link.txAtIdle dominant =
        if s.link.tx = .silenced ∧ s.link.txQueue = [] then .idle
        else if s.link.tx = .waiting ∨ s.link.tx = .backedOff ∨ s.link.tx = .silenced then
          if dominant = false then .sending else if s.link.tx = .silenced then .waiting else s.link.tx
        else s.link.tx := by
      unfold Link.txAtIdle
      cases tx : s.link.tx <;> cases dominant <;> simp
    show Host.Outcome.next (s.onLineIdle dominant) = _
    rw [acts, ← tx]
    rfl
  · intro deaf
    have stands : s.onLineIdle dominant = s := by
      rcases deaf with rx | ⟨bits, cut, rx⟩ | pulse
      · simp [State.onLineIdle, rx]
      · simp [State.onLineIdle, rx]
      · obtain ⟨held, pulse⟩ := Option.ne_none_iff_exists'.1 pulse
        cases rx : s.link.rx <;> simp [State.onLineIdle, rx, pulse]
    exact congrArg Host.Outcome.next stands

/-! ## The head of the receive queue taken (R120, R152, R153) -/

/-- Settles O20, by whether the queue becomes empty. -/
theorem takingTheHeadShowsTheSender : Obligations.TakingTheHeadShowsTheSender := by
  unfold Obligations.TakingTheHeadShowsTheSender
  intro f rest s queue
  rw [takeHead_eq, queue]
  cases rest <;> rfl

section
variable (s : State) (src : BitVec 4)
@[simp] theorem takeHead_odo : (s.takeHead src).odo = s.odo := by rw [takeHead_eq]; split <;> rfl
@[simp] theorem takeHead_sched : (s.takeHead src).sched = s.sched := by rw [takeHead_eq]; split <;> rfl
@[simp] theorem takeHead_pulser : (s.takeHead src).pulser = s.pulser := by rw [takeHead_eq]; split <;> rfl
@[simp] theorem takeHead_judge : (s.takeHead src).judge = s.judge := by rw [takeHead_eq]; split <;> rfl
@[simp] theorem takeHead_loader : (s.takeHead src).loader = s.loader := by rw [takeHead_eq]; split <;> rfl
@[simp] theorem takeHead_hold : (s.takeHead src).hold = s.hold := by rw [takeHead_eq]; split <;> rfl
@[simp] theorem takeHead_pins : (s.takeHead src).pins = s.pins := by rw [takeHead_eq]; split <;> rfl
@[simp] theorem takeHead_pending : (s.takeHead src).pending = s.pending := by rw [takeHead_eq]; split <;> rfl
@[simp] theorem takeHead_state : (s.takeHead src).control.state = s.control.state := by
  rw [takeHead_eq]; split <;> rfl
@[simp] theorem takeHead_rail : (s.takeHead src).control.rail = s.control.rail := by rw [takeHead_eq]; split <;> rfl
@[simp] theorem takeHead_cause : (s.takeHead src).control.cause = s.control.cause := by
  rw [takeHead_eq]; split <;> rfl
@[simp] theorem takeHead_config : (s.takeHead src).control.config = s.control.config := by
  rw [takeHead_eq]; split <;> rfl
@[simp] theorem takeHead_configuredMask : (s.takeHead src).control.configuredMask = s.control.configuredMask := by
  rw [takeHead_eq]; split <;> rfl
@[simp] theorem takeHead_enableMask : (s.takeHead src).control.enableMask = s.control.enableMask := by
  rw [takeHead_eq]; split <;> rfl
@[simp] theorem takeHead_faultOffset : (s.takeHead src).control.faultOffset = s.control.faultOffset := by
  rw [takeHead_eq]; split <;> rfl
@[simp] theorem takeHead_imageId : (s.takeHead src).control.imageId = s.control.imageId := by
  rw [takeHead_eq]; split <;> rfl
@[simp] theorem takeHead_runNumber : (s.takeHead src).control.runNumber = s.control.runNumber := by
  rw [takeHead_eq]; split <;> rfl
@[simp] theorem takeHead_chainFull :
    (s.takeHead src).control.episodes.chainFull = s.control.episodes.chainFull := by rw [takeHead_eq]; split <;> rfl
@[simp] theorem takeHead_drops : (s.takeHead src).link.drops = s.link.drops := by rw [takeHead_eq]; split <;> rfl
@[simp] theorem takeHead_runMark : (s.takeHead src).pair.runMark = s.pair.runMark := by
  rw [takeHead_eq]; split <;> rfl
@[simp] theorem takeHead_lost : (s.takeHead src).pair.lost = s.pair.lost := by rw [takeHead_eq]; split <;> rfl
@[simp] theorem takeHead_station : (s.takeHead src).station = s.station := by rw [takeHead_eq]; split <;> rfl
@[simp] theorem takeHead_elem (e : Element) : (s.takeHead src).elem e = s.elem e := by rw [takeHead_eq]; split <;> rfl
@[simp] theorem takeHead_currentX : (s.takeHead src).currentX = s.currentX := by rw [takeHead_eq]; split <;> rfl
@[simp] theorem takeHead_hasRoomFor (n : Nat) : (s.takeHead src).hasRoomFor n ↔ s.hasRoomFor n := by
  rw [State.hasRoomFor, takeHead_room, State.hasRoomFor]

theorem takeHead_peers :
    (s.takeHead src).pair.peers =
      s.pair.peers.map fun q => if q.address = src then { q with live := true, lastHeard := s.odo.travel } else q := by
  rw [takeHead_eq]; split <;> rfl

@[simp] theorem takeHead_statusNotice (page : Byte) :
    (s.takeHead src).statusNotice page = s.statusNotice page := by
  rw [takeHead_eq]; split <;> rfl

@[simp] theorem takeHead_announceNotice (fresh : Bool) :
    (s.takeHead src).announceNotice fresh = s.announceNotice fresh := by
  rw [takeHead_eq]; split <;> rfl

@[simp] theorem takeHead_indicationNotice (i : Indication) (p : PairState) :
    (s.takeHead src).indicationNotice i p = s.indicationNotice i p := by
  rw [takeHead_eq]; split <;> rfl

@[simp] theorem takeHead_wantsNotice (n : PeerNotice) : (s.takeHead src).wantsNotice n = s.wantsNotice n := by
  rw [takeHead_eq]; split <;> rfl
end

/-- A command whose frame waits at the head is worked once the head is taken (R153). -/
theorem State.waits.dispatch (w : s.waits f rest c) (work : State → State) :
    s.dispatchAs c work = work (s.takeHead f.source) :=
  dispatchAs_waiting s work w.1 w.2.1 w.2.2

theorem frameCommand_source (f : Frame) : (commandFrame (frameCommand f)).map (·.source) = some f.source := by
  unfold frameCommand
  iterate 13
    refine iteInduction (motive := fun i => (commandFrame i).map (·.source) = some f.source) (fun _ => rfl) fun _ => ?_
  rfl

theorem State.waits.source {g : Frame} (w : s.waits f rest c) (h : commandFrame c = some g) : f.source = g.source := by
  have source := frameCommand_source f
  rw [w.2.1, h] at source
  exact (Option.some.inj source).symm

theorem queueStatus_fits (page : Byte) (room : s.hasRoomFor 1) :
    s.queueStatus page = { s with link := s.link.queueing [s.statusNotice page] } := append_fits _ room

theorem queueAnnounce_fits (fresh : Bool) (room : s.hasRoomFor 1) :
    s.queueAnnounce fresh = { s with link := s.link.queueing [s.announceNotice fresh] } := append_fits _ room

/-! ## Requests (R33, R91, R134, R167, R168, R171) -/

theorem workRun_zero (start : BitVec 32) : s.workRun 0 start = s.count Outcomes.countUnknown := rfl

theorem workRun_refused {number : BitVec 16} {start : BitVec 32} (number_ne : number ≠ 0)
    (state : s.control.state = .unconfigured ∨ s.control.state = .running ∨ s.control.state = .lifted ∨
      s.control.state = .still) : s.workRun number start = s.queueStatus 0 := by
  rcases state with h | h | h | h <;> rw [State.workRun, if_neg number_ne, h]

/-- Settles O22. -/
theorem refusedRunChangesNoRun : Obligations.RefusedRunChangesNoRun := by
  unfold Obligations.RefusedRunChangesNoRun
  intro src dest number start f rest s w u
  have worked : exec (.run src dest number start) s = .next (u.workRun number start) :=
    congrArg Host.Outcome.next (w.dispatch _)
  refine ⟨?_, fun number_ne state room => ⟨s.statusNotice 0, statusNotice_showsState s, ?_⟩⟩
  · rintro rfl
    exact worked
  · rw [worked, workRun_refused number_ne (by simpa [u] using state), queueStatus_fits _ (by simpa [u] using room)]
    simp [u]

theorem schedStop_eq (s : State) : s.schedStop = { s with
    sched := { s.sched with state := if s.sched.state.listens then s.sched.state else .off }
    pulser := { s.pulser with hv := if s.sched.state.listens then s.pulser.hv else .off } } := by
  obtain ⟨odo, ⟨state, element⟩, pulser, tracker, judge, cover, pair, link, control, loader, hold, pins, free, pending⟩ := s
  cases state <;> rfl

theorem workStop_run (state : s.control.state.inRun = true ∨ s.control.state = .halted) :
    s.workStop = s.acceptStop := by
  cases h : s.control.state <;> simp_all [State.workStop, StationState.inRun]

theorem workStop_ignored (state : s.control.state = .ready ∨ s.control.state = .unconfigured) : s.workStop = s := by
  rcases state with h | h <;> simp [State.workStop, h]

/-- Settles O23. -/
theorem stopMakesTheRunEndPending : Obligations.StopMakesTheRunEndPending := by
  unfold Obligations.StopMakesTheRunEndPending
  intro src dest f rest s w u
  have worked : exec (.stop src dest) s = .next u.workStop := congrArg Host.Outcome.next (w.dispatch _)
  refine ⟨fun state => ?_, fun state room => ?_⟩
  · rw [worked, workStop_ignored (by simpa [u] using state)]
  · let marked : State :=
      u.modControl fun c => { c with state := .ready, runEndPending := true, liftFromStill := false }
    have stopped : u.workStop = marked.schedStop.queueStatus 0 :=
      workStop_run (by simpa [u, State.inRun] using state)
    have fits : marked.schedStop.hasRoomFor 1 := by
      rw [schedStop_eq]
      simpa [State.hasRoomFor, marked, u] using (takeHead_hasRoomFor s f.source 1).2 room
    refine ⟨marked.schedStop.statusNotice 0, ?_, ?_⟩
    · have shown := statusNotice_showsState marked.schedStop
      rw [schedStop_eq] at shown ⊢
      exact shown
    · rw [worked, stopped, queueStatus_fits _ fits]
      simp [schedStop_eq, marked, u]

theorem zoneEntry_blocks (base limit : Int) :
    let z := zoneEntry base limit
    z.enabled = decide (base ≤ limit) ∧ z.base ≤ base ∧ base < z.base + 16 ∧ 16 ∣ z.base ∧ limit ≤ z.limit ∧
      z.limit < limit + 16 ∧ 16 ∣ z.limit + 1 := by
  simp only [zoneEntry, true_and]
  omega

/-- Settles O26. -/
theorem zoneRequestWritesOneEntry : Obligations.ZoneRequestWritesOneEntry := by
  unfold Obligations.ZoneRequestWritesOneEntry
  intro src dest index base limit f rest s w u
  have worked : exec (.zone src dest index base limit) s = .next (u.receiveZone index base.toInt limit.toInt) :=
    congrArg Host.Outcome.next (w.dispatch _)
  refine ⟨fun high => ?_, fun low state => ?_, fun low state => ?_⟩
  · rw [worked, State.receiveZone, if_pos high]
    rfl
  · rw [worked, State.receiveZone, if_neg (Nat.not_le.2 low), if_pos (by simpa [u] using state)]
  · obtain ⟨enabled, base_le, base_lt, base_dvd, limit_le, limit_lt, limit_dvd⟩ :=
      zoneEntry_blocks base.toInt limit.toInt
    refine ⟨_, enabled, base_le, base_lt, base_dvd, limit_le, limit_lt, limit_dvd,
      { s.judge with zones := s.judge.zones.set (Fin.ofNat 8 index.toNat) (zoneEntry base.toInt limit.toInt) },
      fun i => ?_, rfl, ?_⟩
    · rw [Eight.get_set]
      refine if_congr ?_ rfl rfl
      rw [Fin.ext_iff, Fin.val_ofNat, Nat.mod_eq_of_lt low]
    · rw [worked, State.receiveZone, if_neg (Nat.not_le.2 low), if_neg (by simpa [u] using state), State.modJudge]
      simp [u]

/-- Settles O27. -/
theorem flushEmptiesByScope : Obligations.FlushEmptiesByScope := by
  unfold Obligations.FlushEmptiesByScope
  intro src dest scope peer f rest s w u
  have worked : exec (.flush src dest scope peer) s = .next (u.receiveFlush scope peer) :=
    congrArg Host.Outcome.next (w.dispatch _)
  have state : u.control.state = s.control.state := takeHead_state s _
  refine ⟨fun high => ?_, fun low blank => ?_, ?_, ?_, ?_⟩
  · rw [worked, State.receiveFlush, if_pos high]
    rfl
  · rw [worked, State.receiveFlush, if_neg (Nat.not_le.2 low), if_pos (state.trans blank)]
  all_goals
    rintro rfl ready
    rw [worked, State.receiveFlush, if_neg (by decide), if_neg (state.trans_ne ready)]
    simp [State.modPair, u]

/-- Settles O28: each page is read back byte by byte. -/
theorem clearAndQueryServeTheConsole : Obligations.ClearAndQueryServeTheConsole := by
  unfold Obligations.ClearAndQueryServeTheConsole
  refine ⟨fun src dest f rest s w => ?_, fun src dest page f rest s w room => ?_⟩
  · rw [show exec (.clear src dest) s = .next (s.takeHead f.source).workClear from
      congrArg Host.Outcome.next (w.dispatch _), State.workClear, State.modControl, takeHead_faults]
    rfl
  · intro u given word byte c
    refine ⟨s.statusNotice given, rfl, rfl, ?_, rfl, ⟨?_, ?_, ?_, ?_⟩, ?_⟩
    · have page0 : s.statusPage0.length = 13 := rfl
      have page1 : s.statusPage1.length = 13 := rfl
      have page2 : s.statusPage2.length = 13 := rfl
      have page3 : s.statusPage3.length = 13 := rfl
      show (s.statusPage given).length + 1 = 14
      unfold State.statusPage
      split_ifs <;> omega
    · intro h
      rw [h]
      obtain ⟨hstate, hcause, hoverflow, hzero⟩ := statusHead_fields (stationCode s.control.state)
        (causeCode s.control.cause) s.control.faults.overflow
      exact ⟨hstate, hcause, hoverflow, hzero, bytes16_joined _, bytes16_joined _, maskByte_bit _, rfl, bytes16_joined _,
        bytes16_joined _, show (0 : Byte) ++ (0 : Byte) = (0 : BitVec 16) by decide⟩
    · intro h
      rw [h]
      exact ⟨bytes16_joined _, bytes16_joined _, bytes16_joined _, rfl, rfl, rfl, rfl, rfl, rfl, rfl⟩
    · intro h
      rw [h]
      exact ⟨bytes16_joined _, bytes16_joined _, bytes16_joined _, bytes16_joined _, bytes16_joined _,
        bytes16_joined _, rfl⟩
    · intro h
      rw [h]
      exact ⟨fun e => by fin_cases e <;> rfl, bytes16_joined _, rfl, bytes16_joined _⟩
    · have worked : exec (.query src dest page) s = .next (u.queueStatus given) :=
        congrArg Host.Outcome.next (w.dispatch _)
      rw [worked, queueStatus_fits _ ((takeHead_hasRoomFor s _ 1).2 room), takeHead_statusNotice]

end Sys2Proof.Machine
end

section
/-! SUPPORT. The notices of peers at the pairing unit, and the frame rows; then the theorems that settle O29 to O35. -/

namespace Sys2Proof.Machine

variable {c : Instr} {f : Frame} {rest : List Frame} {s : State}

/-! ## ANNOUNCE and GAP notices of peers (R118, R119, R121) -/

/-- What an entry of the sender becomes does not depend on its being shown first. -/
theorem map_shown (src : BitVec 4) (travel : Nat) (g : Peer → Peer)
    (same : ∀ q, g { q with live := true, lastHeard := travel } = g q) (l : List Peer) :
    (l.map fun q => if q.address = src then { q with live := true, lastHeard := travel } else q).map
        (fun q => if q.address = src then g q else q) =
      l.map fun q => if q.address = src then g q else q := by
  rw [List.map_map]
  refine List.map_congr_left fun q _ => ?_
  rw [Function.comp_apply]
  by_cases h : q.address = src
  · rw [if_pos h, if_pos h, if_pos h, same]
  · rw [if_neg h, if_neg h]

theorem map_shown_of_absent {src : BitVec 4} (travel : Nat) {l : List Peer}
    (absent : l.find? (fun q => q.address == src) = none) :
    (l.map fun q => if q.address = src then { q with live := true, lastHeard := travel } else q) = l := by
  rw [List.map_congr_left (g := id), List.map_id]
  intro q mem
  have other : ¬ q.address = src := by simpa using List.find?_eq_none.1 absent q mem
  rw [if_neg other, id]

theorem find_shown (src : BitVec 4) (travel : Nat) (l : List Peer) :
    (l.map fun q => if q.address = src then { q with live := true, lastHeard := travel } else q).find?
        (fun q => q.address == src) =
      (l.find? fun q => q.address == src).map fun q => { q with live := true, lastHeard := travel } := by
  induction l with
  | nil => rfl
  | cons q l ih => by_cases h : q.address = src <;> simp [h, ih]

theorem receiveAnnounce_defined {src : BitVec 4} {a : AnnounceFields} {state : StationState} {cause : ResetCause}
    {els : Eight PeerElement} (hstate : stationOf a.state = some state) (hcause : causeOf a.cause = some cause)
    (hels : announcedElements a = some els) : s.receiveAnnounce src a = s.workAnnounce src a state els := by
  rw [State.receiveAnnounce, hstate, hcause, hels]

theorem receiveAnnounce_undefined {src : BitVec 4} {a : AnnounceFields}
    (h : stationOf a.state = none ∨ causeOf a.cause = none ∨ announcedElements a = none) :
    s.receiveAnnounce src a = s.count Outcomes.countUnknown := by
  unfold State.receiveAnnounce
  split
  · next hstate hcause hels => simp [hstate, hcause, hels] at h
  · rfl

section
variable {src : BitVec 4} {a : AnnounceFields} {state : StationState} {els : Eight PeerElement} {q : Peer}

/-- The entry an ANNOUNCE makes anew (R118). -/
def announcedEntry (src : BitVec 4) (a : AnnounceFields) (state : StationState) (els : Eight PeerElement)
    (travel : Nat) : Peer :=
  { address := src, rail := railOf a.rail, state := state, runNumber := a.runNumber, element := els,
    lastHeard := travel, live := true }

/-- The entry of a sender that an ANNOUNCE refreshes (R118). -/
def refreshedEntry (state : StationState) (els : Eight PeerElement) (travel : Nat) (r : Peer) : Peer :=
  { r with state := state, element := keepMarks r.element els, live := true, lastHeard := travel }

theorem workAnnounce_new (absent : s.pair.peers.find? (fun q => q.address == src) = none) :
    s.workAnnounce src a state els =
      (s.modPair fun p => { p with
        peers := p.peers ++ [announcedEntry src a state els s.odo.travel]
        notices := p.notices.filter fun n => n.sender != src }).queueAnnounce false := by
  rw [State.workAnnounce, absent]
  rfl

theorem workAnnounce_restarted (known : s.pair.peers.find? (fun q => q.address == src) = some q)
    (start : newStart a q = true) :
    s.workAnnounce src a state els =
      let t := s.modPair fun p => { p with
        peers := p.peers.map fun r => if r.address = src then announcedEntry src a state els s.odo.travel else r
        notices := p.notices.filter fun n => n.sender != src }
      if a.fresh then t.queueAnnounce false else t := by
  rw [State.workAnnounce, known]
  simp only [start, if_true]
  rfl

theorem workAnnounce_refreshed (known : s.pair.peers.find? (fun q => q.address == src) = some q)
    (start : newStart a q = false) :
    s.workAnnounce src a state els =
      s.modPair fun p => { p with peers := p.peers.map fun r =>
        if r.address = src then refreshedEntry state els s.odo.travel r else r } := by
  have stale : a.fresh = false := by
    simp only [newStart, Bool.or_eq_false_iff] at start
    exact start.1.1.1
  rw [State.workAnnounce, known]
  simp only [start, stale, if_false, Bool.false_eq_true]
  rfl
end

theorem newStart_eq_true_iff (a : AnnounceFields) (q : Peer) :
    newStart a q = true ↔
      a.fresh = true ∨ a.runNumber ≠ q.runNumber ∨ q.state = .unconfigured ∨ q.state = .ready := by
  simp [newStart, or_assoc]

/-- Settles O29, by whether the sender is known and its ANNOUNCE a new start. -/
theorem announceMakesOrRefreshesAnEntry : Obligations.AnnounceMakesOrRefreshesAnEntry := by
  unfold Obligations.AnnounceMakesOrRefreshesAnEntry
  intro src a f rest s state cause els w hstate hcause hels u entry forgotten
  have source : f.source = src := w.source (g := frameOf Kind.announce src (announcePayload a)) rfl
  have worked : exec (.announce src a) s = .next (u.workAnnounce src a state els) :=
    congrArg Host.Outcome.next ((w.dispatch _).trans (receiveAnnounce_defined hstate hcause hels))
  have peers : u.pair.peers = s.pair.peers.map fun q =>
      if q.address = src then { q with live := true, lastHeard := s.odo.travel } else q := by
    rw [← source]
    exact takeHead_peers s f.source
  have travel : u.odo = s.odo := takeHead_odo s _
  have notices : u.pair.notices = s.pair.notices := takeHead_notices s _
  have announce (p : Pairing → Pairing) : (u.modPair p).announceNotice false = s.announceNotice false :=
    takeHead_announceNotice s f.source false
  have fits (p : Pairing → Pairing) (room : s.hasRoomFor 1) : (u.modPair p).hasRoomFor 1 :=
    (takeHead_hasRoomFor s f.source 1).2 room
  have known (q : Peer) (h : s.pair.peers.find? (fun q => q.address == src) = some q) :
      u.pair.peers.find? (fun q => q.address == src) = some { q with live := true, lastHeard := s.odo.travel } := by
    rw [peers, find_shown, h]
    rfl
  have entries (g : Peer → Peer) (same : ∀ q, g { q with live := true, lastHeard := s.odo.travel } = g q) :
      (u.pair.peers.map fun r => if r.address = src then g r else r) =
        s.pair.peers.map fun r => if r.address = src then g r else r := by
    rw [peers]
    exact map_shown src _ g same _
  refine ⟨fun q h stale number blank ready => ?_, fun q h stale start => ?_, fun absent room => ?_,
    fun q h fresh room => ?_⟩
  · have start : newStart a { q with live := true, lastHeard := s.odo.travel } = false := by
      rw [Bool.eq_false_iff, Ne, newStart_eq_true_iff]
      simp [stale, number, blank, ready]
    rw [worked, workAnnounce_refreshed (known q h) start, State.modPair, travel,
      entries (refreshedEntry state els s.odo.travel) (fun _ => rfl)]
    rfl
  · rw [worked, workAnnounce_restarted (known q h) ((newStart_eq_true_iff _ _).2 (.inr start)), stale, State.modPair,
      travel, notices, entries (fun _ => announcedEntry src a state els s.odo.travel) (fun _ => rfl)]
    rfl
  · have unknown : u.pair.peers.find? (fun q => q.address == src) = none := by rw [peers, find_shown, absent]; rfl
    refine ⟨s.announceNotice false, announceNotice_announces s false, ?_⟩
    rw [worked, workAnnounce_new unknown, queueAnnounce_fits _ (fits _ room), announce, State.modPair, travel, notices,
      peers, map_shown_of_absent _ absent]
    rfl
  · refine ⟨s.announceNotice false, announceNotice_announces s false, ?_⟩
    rw [worked, workAnnounce_restarted (known q h) ((newStart_eq_true_iff _ _).2 (.inl fresh))]
    simp only [fresh, if_true]
    rw [queueAnnounce_fits _ (fits _ room), announce, State.modPair, travel, notices,
      entries (fun _ => announcedEntry src a state els s.odo.travel) (fun _ => rfl)]
    rfl

theorem gapCause_undefined : ∀ cause : BitVec 3, 6 ≤ cause.toNat ↔ cause = 6 ∨ cause = 7 := by decide

theorem receiveGap_defined {src : BitVec 4} {g : GapFields} (six : g.cause ≠ 6) (seven : g.cause ≠ 7) :
    s.receiveGap src g = s.modPair fun p => { p with peers := p.peers.map fun q =>
      if q.address = src then
        { q with element := Eight.ofFn fun e =>
            if g.mask.getLsbD e.val then { q.element.get e with gapOpen := !g.close } else q.element.get e }
      else q } := by
  rw [State.receiveGap, if_neg]
  rw [gapCause_undefined]
  exact fun h => h.elim six seven

/-- Settles O33. -/
theorem gapNoticeSetsTheMarks : Obligations.GapNoticeSetsTheMarks := by
  unfold Obligations.GapNoticeSetsTheMarks
  intro src g f rest s w six seven
  have source : f.source = src := w.source (g := frameOf Kind.gap src (gapPayload g)) rfl
  refine ⟨_, (congrArg Host.Outcome.next ((w.dispatch _).trans (receiveGap_defined six seven))), ?_, fun k q h => ?_⟩
  · rw [takeHead_peers, List.length_map, List.length_map]
  · rw [takeHead_peers, List.getElem?_map, List.getElem?_map, h, source]
    refine ⟨fun other => by simp [other], fun own => ?_⟩
    rw [Option.map_some, Option.map_some, if_pos own, if_pos own]
    refine ⟨_, rfl, rfl, fun e => ?_⟩
    rw [Eight.get_ofFn]
    split <;> rfl

/-! ## INDICATION notices of peers (R116, R117, R123, R130 to R133) -/

theorem sensesComplement_iff (a b : Sense) : sensesComplement a b = true ↔ a.completes b := by
  cases a <;> cases b <;> simp [sensesComplement, Sense.completes]

theorem matching_iff (c : StationSection) (i : Indication) (n : PeerNotice) :
    matching c i n = true ↔ i.matched c n := by
  obtain ⟨sequence, element, rail, key, sense, x, body⟩ := i
  obtain ⟨sender, nsequence, nelement, nrail, nkey, nsense, sole, nx, depth, arrival⟩ := n
  cases body <;> cases depth <;>
    simp [matching, complementary, Body.depth?, Indication.matched, sensesComplement_iff, and_assoc]
  all_goals
    intros
    exact Iff.rfl

theorem wantsNotice_iff (n : PeerNotice) : s.wantsNotice n = true ↔ s.awaits n := by
  simp only [State.wantsNotice, List.any_eq_true, mem_elements, true_and, Bool.and_eq_true, beq_iff_eq, bne_iff_ne,
    sensesComplement_iff, senseOfSine, Bool.or_eq_true, hasGateB, State.awaits]
  constructor
  · rintro ⟨e, ⟨⟨⟨⟨on, rail⟩, key⟩, some_key⟩, sense⟩, wall⟩
    refine ⟨rail, some_key, e, on, key, sense, fun depth => ?_⟩
    simpa [depth] using wall
  · rintro ⟨rail, some_key, e, on, key, sense, wall⟩
    refine ⟨e, ⟨⟨⟨⟨on, rail⟩, key⟩, some_key⟩, sense⟩, ?_⟩
    cases depth : n.depth with
    | none => exact .inr (wall depth)
    | some d => exact .inl rfl

/-- A best match divides its list: the acceptable items before it are farther and those after it no nearer. -/
theorem bestMatch_split {α : Type} {ok : α → Bool} {dist : α → Nat} {l : List α} {i : Nat} {a : α}
    (h : bestMatch ok dist l = some (i, a)) :
    ∃ before after, l = before ++ a :: after ∧ l.eraseIdx i = before ++ after ∧ ok a = true ∧
      (∀ b ∈ before, ok b = true → dist a < dist b) ∧ ∀ b ∈ after, ok b = true → dist a ≤ dist b := by
  obtain ⟨at_i, good, nearest⟩ := bestMatch_spec h
  obtain ⟨lt, e⟩ := List.getElem?_eq_some_iff.1 at_i
  refine ⟨l.take i, l.drop (i + 1), ?_, List.eraseIdx_eq_take_drop_succ .., good, bestMatch_lt_of_mem_take h,
    fun b mem => nearest b (List.mem_of_mem_drop mem)⟩
  rw [← e, ← List.drop_eq_getElem_cons lt, List.take_append_drop]

theorem senseOf_eq_none_iff : ∀ sense : BitVec 2, senseOf sense = none ↔ sense = 3 := by decide

theorem receiveIndication_outside {src : BitVec 4} {i : IndicationFields} (run : s.pair.runMark = false) :
    s.receiveIndication src i = s := by
  rw [State.receiveIndication, run]
  rfl

theorem receiveIndication_undefined {src : BitVec 4} {i : IndicationFields} (run : s.pair.runMark = true)
    (sense : i.sense = 3) : s.receiveIndication src i = s.count Outcomes.countUnknown := by
  rw [State.receiveIndication, run, (senseOf_eq_none_iff i.sense).2 sense]
  rfl

theorem receiveIndication_paired {src : BitVec 4} {i : IndicationFields} (run : s.pair.runMark = true)
    (sense : i.sense ≠ 3) (paired : i.state = 1 ∨ i.state = 3) : s.receiveIndication src i = s.workPaired src i := by
  obtain ⟨known, hknown⟩ := Option.ne_none_iff_exists'.1 (mt (senseOf_eq_none_iff i.sense).1 sense)
  rw [State.receiveIndication, run, hknown, if_pos rfl]
  exact if_pos paired

theorem receiveIndication_unpaired {src : BitVec 4} {i : IndicationFields} {sense : Sense}
    (run : s.pair.runMark = true) (known : senseOf i.sense = some sense) (unpaired : i.state = 0 ∨ i.state = 2) :
    s.receiveIndication src i = s.workUnpaired (peerNotice src i sense s.odo.travel) := by
  rw [State.receiveIndication, run, known, if_pos rfl]
  refine if_neg ?_
  rcases unpaired with h | h <;> rw [h] <;> decide

/-- Settles O31. -/
theorem pairedNoticeRemovesWhatItNames : Obligations.PairedNoticeRemovesWhatItNames := by
  unfold Obligations.PairedNoticeRemovesWhatItNames
  intro src i f rest s w u
  have worked : exec (.indication src i) s = .next (u.receiveIndication src i) :=
    congrArg Host.Outcome.next (w.dispatch _)
  have mark : u.pair.runMark = s.pair.runMark := takeHead_runMark s _
  refine ⟨fun run => ?_, fun run sense paired => ?_⟩
  · rw [worked, receiveIndication_outside (mark.trans run)]
  · rw [worked, receiveIndication_paired (mark.trans run) sense paired, State.workPaired, State.modPair]
    simp [u]

theorem announcedElements_undefined {a : AnnounceFields}
    (h : ∃ e : Element, a.mask.getLsbD e.val = true ∧ (a.descriptors.get e).extractLsb' 0 2 = 3) :
    announcedElements a = none := by
  obtain ⟨e, on, sense⟩ := h
  rw [announcedElements, if_pos]
  rw [List.any_eq_true]
  exact ⟨e, mem_elements e, by rw [on, sense]; rfl⟩

/-- Settles O30, notice by notice. -/
theorem undefinedCodesAreCountedUnknown : Obligations.UndefinedCodesAreCountedUnknown := by
  unfold Obligations.UndefinedCodesAreCountedUnknown
  intro src f rest s u counted
  refine ⟨fun g w cause => ?_, fun a w code => ?_, fun i w run sense => ?_⟩
  · refine congrArg Host.Outcome.next ((w.dispatch _).trans ?_)
    exact if_pos ((gapCause_undefined g.cause).2 cause)
  · refine congrArg Host.Outcome.next ((w.dispatch _).trans (receiveAnnounce_undefined ?_))
    rcases code with h | h | h | h
    · exact .inl (by rw [h]; rfl)
    · exact .inl (by rw [h]; rfl)
    · exact .inr (.inl (by rw [h]; rfl))
    · exact .inr (.inr (announcedElements_undefined h))
  · exact congrArg Host.Outcome.next
      ((w.dispatch _).trans (receiveIndication_undefined ((takeHead_runMark s _).trans run) sense))

@[simp] theorem takeHead_bestOwn (src : BitVec 4) (n : PeerNotice) : (s.takeHead src).bestOwn n = s.bestOwn n := by
  rw [takeHead_eq]
  split <;> rfl

theorem workUnpaired_settled {n : PeerNotice} {k : Nat} {o : OwnEntry} (best : s.bestOwn n = some (k, o)) :
    s.workUnpaired n =
      if n.sender < s.control.address then
        (s.modPair fun p => { p with own := p.own.eraseIdx k }).append
          (s.indicationNotice o.indication (.late n.sender n.sequence))
      else s.modPair fun p => { p with own := p.own.eraseIdx k } := by
  rw [State.workUnpaired, best]

theorem workUnpaired_unmatched {n : PeerNotice} (best : s.bestOwn n = none) :
    s.workUnpaired n = if s.wantsNotice n then s.modPair (storeNotice n) else s := by
  rw [State.workUnpaired, best]

theorem sameNotice_iff (n m : PeerNotice) : sameNotice n m = true ↔ m.sender = n.sender ∧ m.sequence = n.sequence := by
  rw [sameNotice, Bool.and_eq_true, beq_iff_eq, beq_iff_eq, eq_comm, eq_comm (a := n.sequence)]

theorem storeNotice_new {n : PeerNotice} {p : Pairing}
    (new : ∀ m ∈ p.notices, ¬ (m.sender = n.sender ∧ m.sequence = n.sequence)) :
    storeNotice n p = { p with
      notices := if p.notices.length < 32 then p.notices ++ [n] else p.notices.tail ++ [n]
      lost := if p.notices.length < 32 then p.lost else min (p.lost + 1) 65535 } := by
  have none_same : p.notices.any (sameNotice n) = false := by
    rw [List.any_eq_false]
    exact fun m mem => mt (sameNotice_iff n m).1 (new m mem)
  rw [storeNotice, none_same, if_neg Bool.false_ne_true]
  by_cases room : p.notices.length < 32
  · rw [if_pos (show p.notices.length < Config.peerNoticeCapacity from room), if_pos room, if_pos room]
  · rw [if_neg (show ¬ p.notices.length < Config.peerNoticeCapacity from room), if_neg room, if_neg room]
    rfl

theorem storeNotice_again {n : PeerNotice} {p : Pairing}
    (again : ∃ m ∈ p.notices, m.sender = n.sender ∧ m.sequence = n.sequence) :
    storeNotice n p = { p with notices := p.notices.map fun m =>
      if m.sender = n.sender ∧ m.sequence = n.sequence then { n with arrival := m.arrival } else m } := by
  have some_same : p.notices.any (sameNotice n) = true := by
    obtain ⟨m, mem, same⟩ := again
    exact List.any_eq_true.2 ⟨m, mem, (sameNotice_iff n m).2 same⟩
  rw [storeNotice, some_same, if_pos rfl]
  simp only [sameNotice_iff]

/-- Settles O32, by whether the notice finds a match among the own entries. -/
theorem unpairedNoticeSettlesOrIsStored : Obligations.UnpairedNoticeSettlesOrIsStored := by
  unfold Obligations.UnpairedNoticeSettlesOrIsStored
  intro src i sense f rest s w run known unpaired u n fits apart
  have worked : exec (.indication src i) s = .next (u.workUnpaired n) := by
    refine congrArg Host.Outcome.next ((w.dispatch _).trans ?_)
    rw [receiveIndication_unpaired ((takeHead_runMark s _).trans run) known unpaired, takeHead_odo]
    rfl
  have own : u.pair.own = s.pair.own := takeHead_own s _
  have address : u.control.address = s.control.address := takeHead_address s _
  have unmatched (none_fits : ∀ o ∈ s.pair.own, ¬ fits o) : u.bestOwn n = none := by
    rw [takeHead_bestOwn]
    exact bestMatch_eq_none_iff.2 fun o mem => Bool.eq_false_iff.2 (mt (matching_iff _ _ _).1 (none_fits o mem))
  refine ⟨fun o mem fit => ?_, fun none_fits unwanted => ?_, fun none_fits wanted => ?_⟩
  · obtain ⟨⟨k, best⟩, hbest⟩ : ∃ b, u.bestOwn n = some b := by
      refine Option.ne_none_iff_exists'.1 fun none_best => ?_
      rw [takeHead_bestOwn] at none_best
      have none_fits := bestMatch_eq_none_iff.1 none_best o mem
      rw [(matching_iff _ _ _).2 fit] at none_fits
      exact Bool.noConfusion none_fits
    obtain ⟨before, after, divided, erased, fit_best, farther, no_nearer⟩ :=
      bestMatch_split ((takeHead_bestOwn _ _).symm.trans hbest)
    refine ⟨before, best, after, divided, (matching_iff _ _ _).1 fit_best,
      fun x mem fit => farther x mem ((matching_iff _ _ _).2 fit),
      fun x mem fit => no_nearer x mem ((matching_iff _ _ _).2 fit), ?_⟩
    intro settled
    have removed : (u.modPair fun p => { p with own := p.own.eraseIdx k }) = settled := by
      rw [State.modPair, own, erased]
    rw [worked, workUnpaired_settled hbest, removed, address]
    refine ⟨fun above => ?_, fun below room => ?_, fun below full => ?_⟩
    · rw [if_neg (BitVec.not_lt.2 above)]
    · refine ⟨_, indicationNotice_indicates s best.indication (.late src n.sequence), ?_⟩
      rw [if_pos (show n.sender < s.control.address from below), takeHead_indicationNotice,
        append_fits _ (show settled.hasRoomFor 1 from (takeHead_hasRoomFor s f.source 1).2 room)]
    · have full' : 24 ≤ settled.link.txQueue.length := by
        rw [show settled.link.txQueue = s.link.txQueue from takeHead_room s f.source]
        exact full
      rw [if_pos (show n.sender < s.control.address from below), takeHead_indicationNotice, append_dropped _ full',
        show settled.link.drops = s.link.drops from takeHead_drops s f.source]
      rfl
  · rw [worked, workUnpaired_unmatched (unmatched none_fits), takeHead_wantsNotice, if_neg]
    exact mt (wantsNotice_iff n).1 unwanted
  · have stored : exec (.indication src i) s = .next (u.modPair (storeNotice n)) := by
      rw [worked, workUnpaired_unmatched (unmatched none_fits), takeHead_wantsNotice,
        if_pos ((wantsNotice_iff n).2 wanted)]
    have notices : u.pair.notices = s.pair.notices := takeHead_notices s _
    rw [stored, State.modPair]
    refine ⟨fun new => ?_, fun again => ?_⟩
    · rw [storeNotice_new (notices ▸ new), notices, takeHead_lost]
    · rw [storeNotice_again (notices ▸ again), notices]

/-! ## Other notices and frame rows (R121, R153) -/

/-- Settles O34. -/
theorem otherNoticesServeForLiveness : Obligations.OtherNoticesServeForLiveness := by
  unfold Obligations.OtherNoticesServeForLiveness
  intro src f rest s u
  exact ⟨fun p w => congrArg Host.Outcome.next (w.dispatch id), fun p w => congrArg Host.Outcome.next (w.dispatch id),
    fun p w => congrArg Host.Outcome.next (w.dispatch id),
    fun kind payload w => congrArg Host.Outcome.next (w.dispatch _)⟩

/-- Every command that is a frame is worked by its dispatch. -/
theorem exec_frame (h : commandFrame c = some f) : ∃ work, ∀ s, exec c s = .next (s.dispatchAs c work) := by
  cases c <;> simp only [commandFrame, reduceCtorEq] at h <;> exact ⟨_, fun _ => rfl⟩

theorem frame_lengthOk (h : commandFrame c = some f) (formed : c.wellFormed = true) :
    lengthOk f.kind f.payload.length = true := by
  cases c <;> simp only [commandFrame, Option.some.injEq, reduceCtorEq] at h <;> subst h
  case unknownKind src kind payload => exact Laws.FrameLength.unknownKind src kind payload formed _ rfl
  all_goals rfl

theorem dispatchAs_heard (work : State → State) (h : commandFrame c = some f) (reads : frameCommand f = c)
    (queue : s.link.rxQueue = []) {t : State} (heard : s.hearFrame f = t) (waits : t.link.rxQueue = [f]) :
    s.dispatchAs c work = t.dispatchAs c work := by
  have absent : ((s.link.rxQueue.head?.map frameCommand) == some c) = false := by rw [queue]; rfl
  have present : ((t.link.rxQueue.head?.map frameCommand) == some c) = true := by simp [waits, reads]
  unfold State.dispatchAs
  rw [h]
  simp only [absent, present, heard, if_true, if_false, Bool.false_eq_true]

/-- Settles O35: the frame, of an allowed length, is heard, counted and enters the empty receive queue. -/
theorem frameRowsStandForTheirFrames : Obligations.FrameRowsStandForTheirFrames := by
  unfold Obligations.FrameRowsStandForTheirFrames
  intro c f s h formed queue
  obtain ⟨work, worked⟩ := exec_frame h
  refine ⟨fun rx => by rw [worked, dispatchAs_inactive s c work rx queue], fun rx foreign ours _ => ?_⟩
  have length : lengthOk f.kind f.payload.length = true := frame_lengthOk h formed
  have taken : s.notForUs f = false := by
    cases request : f.isRequest with
    | false => exact notForUs_of_notRequest request
    | true => rw [notForUs_of_request request, ours request]; rfl
  rw [worked, worked]
  refine congrArg Host.Outcome.next (dispatchAs_heard work h (framesReadBackAsTheirCommands c f formed h) queue ?_ rfl)
  rw [State.hearFrame, if_neg rx, if_pos length, acceptGood_ours foreign taken, State.enterQueue, if_pos]
  · rw [State.modLink, State.count_eq]
    simp [queue, Link.count, State.modLink]
    rfl
  · rw [State.count_eq, State.modLink_link]
    simp [Link.count, queue, Config.rxCapacity]

end Sys2Proof.Machine
end

section
/-! SUPPORT. What is due with no command waiting, the reset and the start-up, the encoder, the lift and stillness; then the
theorems that settle O1 to O8, O10 to O12, O16, O18 and O19. -/

namespace Sys2Proof.Machine

variable {s : State}

/-! ## What is due (O1) -/

section
variable (s : State)

theorem stillTicks_eq : s.stillTicks = 5000000 * s.station.stillTime := rfl
theorem filterTicks_eq : s.filterTicks = 5 * s.station.encoderFilter := rfl
theorem liftTicks_eq : s.liftTicks = 50000 * s.station.liftFilter := rfl

theorem runEndDue_iff : s.runEndDue = true ↔ s.control.runEndPending = true ∧ s.sched.state = .off := by
  simp [State.runEndDue]

theorem canTake_iff (f : Frame) :
    s.canTake f = true ↔ (f.toControl = true → s.control.runEndPending = false) := by
  unfold State.canTake
  cases f.toControl <;> simp

theorem dispatchDue_eq_some_iff (c : Instr) : s.dispatchDue = some c ↔
    ∃ f, s.link.rxQueue.head? = some f ∧ (f.toControl = true → s.control.runEndPending = false) ∧
      frameCommand f = c := by
  unfold State.dispatchDue
  cases s.link.rxQueue.head? with
  | none => simp
  | some f =>
    simp [canTake_iff]

theorem stillDue_iff : s.stillDue = true ↔
    s.odo.active = true ∧ s.odo.stillMark = false ∧ 5000000 * s.station.stillTime ≤ s.odo.sinceEdge := by
  have due : s.stillDue = true ↔
      s.odo.active = true ∧ s.odo.stillMark = false ∧ s.stillTicks ≤ s.odo.sinceEdge := by
    simp [State.stillDue, and_assoc]
  exact due

theorem stuckDue_iff (l : Link) : l.stuckDue = true ↔
    l.rx ≠ .inactive ∧ l.tx ≠ .silenced ∧ ∃ held, l.pulse = some held ∧ 100001 ≤ held := by
  have due : l.stuckDue = true ↔
      l.rx ≠ .inactive ∧ l.tx ≠ .silenced ∧ ∃ held, l.pulse = some held ∧ Config.stuckTicks ≤ held := by
    cases h : l.pulse <;> simp [Link.stuckDue, h, and_assoc]
  exact due

/-- The transmitter drives a bit the receiver has not heard, on a line with no pulse on it. -/
def Link.unheard (l : Link) : Bool :=
  decide (l.tx = .sending) &&
    match l.rx with
    | .idle => true
    | .frame bits none => decide (bits.length < l.ownBits.length)
    | _ => false

theorem driving_eq_unheard {l : Link} (silent : l.pulse = none) : l.driving = l.unheard := by
  cases rx : l.rx with
  | frame bits cut =>
    cases cut <;> simp only [Link.driving, Link.unheard, rx] <;> cases l.tx <;> simp
  | _ =>
    simp only [Link.driving, Link.unheard, rx, silent]
    cases l.tx <;> rfl

theorem frameEndDue_iff (l : Link) : l.frameEndDue = true ↔
    (∃ bits cut, l.rx = .frame bits cut) ∧ (l.pulse = none ∧ 600 ≤ l.quiet) ∧ l.unheard = false := by
  have due : l.frameEndDue = true ↔ (∃ bits cut, l.rx = .frame bits cut) ∧
      (l.pulse = none ∧ Config.frameEndTicks ≤ l.quiet) ∧ l.unheard = false := by
    cases rx : l.rx with
    | frame bits cut =>
      cases pulse : l.pulse with
      | none => simp [Link.frameEndDue, rx, pulse, driving_eq_unheard pulse]
      | some held => simp [Link.frameEndDue, rx, pulse]
    | _ => simp [Link.frameEndDue, rx]
  exact due

theorem idleDue_iff (l : Link) : l.idleDue = true ↔
    (l.pulse = none ∧ 2000 ≤ l.quiet) ∧ (l.rx = .seeking ∨ (l.rx = .idle ∧
      (l.tx = .waiting ∨ l.tx = .backedOff ∨ l.tx = .silenced))) := by
  have waits : l.tx.waits = true ↔ l.tx = .waiting ∨ l.tx = .backedOff ∨ l.tx = .silenced := by
    cases l.tx <;> simp [TxState.waits]
  have due : l.idleDue = true ↔ (l.pulse = none ∧ Config.idleTicks ≤ l.quiet) ∧ (l.rx = .seeking ∨ (l.rx = .idle ∧
      (l.tx = .waiting ∨ l.tx = .backedOff ∨ l.tx = .silenced))) := by
    cases rx : l.rx <;> simp [Link.idleDue, rx, waits, and_comm]
  exact due

theorem operandsDue_iff : s.operandsDue = true ↔
    (∃ n, (s.odo.timingA = some n ∨ s.odo.timingB = some n) ∧ 5 * s.station.encoderFilter ≤ n) ∨
    (∃ n, s.odo.liftHeld = some n ∧ 50000 * s.station.liftFilter ≤ n) ∨
    (∃ shot, s.sched.state = .listening shot ∧ shot.listenLeft = 0) ∨ s.sched.state = .recovering 0 ∨
    ∃ n, s.pulser.hv = .settling n ∧ 100000 ≤ n := by
  have timed (o : Option Nat) (limit : Nat) :
      o.any (fun t => decide (limit ≤ t)) = true ↔ ∃ n, o = some n ∧ limit ≤ n := by
    cases o <;> simp
  have due : s.operandsDue = true ↔
      ((((∃ n, s.odo.timingA = some n ∧ s.filterTicks ≤ n) ∨ ∃ n, s.odo.timingB = some n ∧ s.filterTicks ≤ n) ∨
        ∃ n, s.odo.liftHeld = some n ∧ s.liftTicks ≤ n) ∨
        ((∃ shot, s.sched.state = .listening shot ∧ shot.listenLeft = 0) ∨ s.sched.state = .recovering 0)) ∨
      ∃ n, s.pulser.hv = .settling n ∧ Config.settleTicks ≤ n := by
    unfold State.operandsDue
    simp only [Bool.or_eq_true]
    refine or_congr (or_congr (or_congr (or_congr (timed _ _) (timed _ _)) (timed _ _)) ?_) ?_
    · cases s.sched.state <;> simp
    · cases s.pulser.hv <;> simp
  rw [due]
  simp only [or_and_right, exists_or, or_assoc]
  exact Iff.rfl

theorem linkTick_eq (l : Link) : l.tick =
    if l.rx = .inactive then l
    else
      match l.pulse with
      | some held => { l with
          pulse := some (min (held + 1) 100001)
          rx :=
            match l.rx with
            | .frame bits cut =>
              if held + 1 < 250 then .frame bits cut else .frame [] (if l.tx = .sending then some 0 else cut)
            | other => other }
      | none => { l with quiet := if l.unheard then l.quiet else min (l.quiet + 1) 2000 } := by
  unfold Link.tick
  split
  · rfl
  · cases pulse : l.pulse with
    | none => rw [driving_eq_unheard pulse]; rfl
    | some held =>
      have gives : l.rx.giveUp (l.tx == .sending) =
          match l.rx with
          | .frame bits cut => .frame [] (if l.tx = .sending then some 0 else cut)
          | other => other := by
        cases l.rx <;> simp [RxState.giveUp]
      simp only [gives, Config.giveUpTicks, Config.stuckTicks]
      cases rx : l.rx with
      | frame bits cut =>
        by_cases short : held + 1 < 250
        · simp only [if_neg (Nat.not_le.2 short), if_pos short]
        · simp only [if_pos (Nat.not_lt.1 short), if_neg short]
      | _ => split <;> rfl

theorem schedTick_eq (st : SchedState) : st.tick =
    match st with
    | .listening shot => .listening { shot with listenLeft := shot.listenLeft - 1 }
    | .recovering left => .recovering (left - 1)
    | other => other := by cases st <;> rfl

theorem hvTick_eq (hv : HighVoltage) : hv.tick =
    match hv with
    | .settling n => .settling (n + 1)
    | other => other := by cases hv <;> rfl
end

theorem step_idle (empty : s.pending = []) : step s = idle s := by rw [step, empty]

theorem idle_of_due {c : Instr} (due : s.dueCommand = some c) : idle s = exec c s := by rw [idle, due]

theorem dispatchDue_eq_none_iff : s.dispatchDue = none ↔
    ∀ f, ¬ (s.link.rxQueue.head? = some f ∧ (f.toControl = true → s.control.runEndPending = false)) := by
  constructor
  · rintro none f ⟨head, ready⟩
    have due := (dispatchDue_eq_some_iff s (frameCommand f)).2 ⟨f, head, ready, rfl⟩
    rw [none] at due
    cases due
  · intro no
    by_contra some
    obtain ⟨c, due⟩ := Option.ne_none_iff_exists'.1 some
    obtain ⟨f, head, ready, -⟩ := (dispatchDue_eq_some_iff s c).1 due
    exact no f ⟨head, ready⟩

/-- Settles O1: each test of what is due is one of the statement's conditions, and they are made in its order. -/
theorem stepRunsFrontCommandElseDueEvent : Obligations.StepRunsFrontCommandElseDueEvent := by
  unfold Obligations.StepRunsFrontCommandElseDueEvent
  refine ⟨fun c rest s queue => by rw [step, queue], fun s empty => ?_⟩
  intro recessive unheard ends takes still stuck ended idles waits
  rw [step_idle empty]
  refine ⟨fun h => ?_, fun no_end f h => ?_, fun no_end none_taken => ?_⟩
  · exact idle_of_due (by rw [State.dueCommand, if_pos ((runEndDue_iff s).2 h)])
  · have due := (dispatchDue_eq_some_iff s (frameCommand f)).2 ⟨f, h.1, h.2, rfl⟩
    exact idle_of_due (by rw [State.dueCommand, if_neg (mt (runEndDue_iff s).1 no_end), due])
  have command : s.dueCommand =
      if s.stillDue then some .stillness
      else if s.link.stuckDue then some .stuckLine
      else if s.link.frameEndDue then some .frameEnd
      else if s.link.idleDue then some (.lineIdle false)
      else none := by
    rw [State.dueCommand, if_neg (mt (runEndDue_iff s).1 no_end), dispatchDue_eq_none_iff.2 none_taken]
  refine ⟨fun h => idle_of_due (by rw [command, if_pos ((stillDue_iff s).2 h)]), fun no_still => ?_⟩
  rw [if_neg (mt (stillDue_iff s).1 no_still)] at command
  refine ⟨fun h => idle_of_due (by rw [command, if_pos ((stuckDue_iff _).2 h)]), fun no_stuck h => ?_,
    fun no_stuck no_ended h => ?_, fun no_stuck no_ended no_idle => ?_⟩
  all_goals rw [if_neg (mt (stuckDue_iff _).1 no_stuck)] at command
  · exact idle_of_due (by rw [command, if_pos ((frameEndDue_iff _).2 h)])
  · exact idle_of_due (by
      rw [command, if_neg (mt (frameEndDue_iff _).1 no_ended), if_pos ((idleDue_iff _).2 h)])
  · rw [if_neg (mt (frameEndDue_iff _).1 no_ended), if_neg (mt (idleDue_iff _).1 no_idle)] at command
    rw [idle, command]
    refine ⟨fun h => congrArg Host.Outcome.next (if_pos ((operandsDue_iff s).2 h)), fun no_wait => ?_⟩
    refine congrArg Host.Outcome.next ((if_neg (mt (operandsDue_iff s).1 no_wait)).trans ?_)
    rw [State.tick, State.modOdo, State.modSched, State.modPulser, State.modLink, linkTick_eq, schedTick_eq, hvTick_eq]
    rfl

/-! ## Reset and start-up (R157 to R164) -/

/-- Settles O2. -/
theorem resetStateMatchesTables : Obligations.ResetStateMatchesTables := by
  unfold Obligations.ResetStateMatchesTables
  refine ⟨by decide, ⟨rfl, rfl, fun e => ?_⟩, rfl, ⟨rfl, fun i => ?_, rfl, rfl, rfl⟩, ⟨rfl, rfl, rfl, rfl, fun e => ?_⟩,
    rfl, by decide, by decide, rfl⟩
  · exact ⟨Eight.get_all _ e, Eight.get_all _ e⟩
  · rw [show State.reset.judge.zones = Eight.all ⟨false, 0, 0⟩ from rfl, Eight.get_all]
  · rw [show State.reset.cover.element = Eight.all ElementCover.fresh from rfl, Eight.get_all]
    exact ⟨rfl, rfl, rfl, rfl, rfl, rfl⟩

theorem strapAddress_eq : ∀ a0 a1 a2 a3 : Level,
    (flagBit (a3 == .high) ++ flagBit (a2 == .high) ++ flagBit (a1 == .high) ++ flagBit (a0 == .high) : BitVec 4) =
      BitVec.ofNat 4 ((if a0 = .high then 1 else 0) + (if a1 = .high then 2 else 0) + (if a2 = .high then 4 else 0) +
        (if a3 = .high then 8 else 0)) := by
  intro a0 a1 a2 a3
  cases a0 <;> cases a1 <;> cases a2 <;> cases a3 <;> rfl

theorem strapRail_eq (p : Straps) : strapRail p = if p.rails = .high then .right else .left := by
  unfold strapRail
  split <;> simp_all

theorem recorded_add (cause : ResetCause) (h : Hold) : (h.add cause).recorded =
    if h.power = true ∨ cause = .power then .power else if h.supply = true ∨ cause = .supply then .supply
    else .line := by
  obtain ⟨power, line, supply⟩ := h
  cases cause <;> cases power <;> cases supply <;> rfl

theorem faultsAfter_eq (cause : ResetCause) (f : FaultFile) :
    faultsAfter cause f = if cause = .line then f else ⟨[], false, 0⟩ := by cases cause <;> rfl

/-- Settles O3. -/
theorem resetClearsAllButLineFaults : Obligations.ResetClearsAllButLineFaults := by
  unfold Obligations.ResetClearsAllButLineFaults
  intro cause straps s recorded
  show Host.Outcome.next (s.leaveReset cause straps) = _
  rw [State.leaveReset, recorded_add, faultsAfter_eq, strapRail_eq, strapAddress, strapAddress_eq]
  rfl

theorem add_eq (cause : ResetCause) (h : Hold) : h.add cause =
    { power := h.power || cause == .power, line := h.line || cause == .line, supply := h.supply || cause == .supply } := by
  obtain ⟨power, line, supply⟩ := h
  cases cause <;> cases power <;> cases line <;> cases supply <;> rfl

/-- Settles O4. -/
theorem heldInResetReleasesTheLine : Obligations.HeldInResetReleasesTheLine := by
  unfold Obligations.HeldInResetReleasesTheLine
  intro cause s
  show Host.Outcome.next (s.holdInReset cause) = _
  rw [State.holdInReset, add_eq]
  rfl

theorem endStarting_loading {memory : List Byte} (state : s.control.state = .starting)
    (hold : s.hold = ⟨false, false, false⟩) : exec (.startingEnd memory) s = .next (s.endStarting memory) := by
  refine congrArg Host.Outcome.next (if_pos ?_)
  simp [State.loading, Hold.any, state, hold]

/-- What STARTING_END leaves of a link at its values after reset: both notices of R164 queued, and the transmitter
waiting. -/
theorem endStarting_eq_queued {memory : List Byte} (link : s.link = Link.afterReset) :
    ∃ ann status, s.endStarting memory = { s.started memory with
        link := { Link.afterReset with rx := .seeking, tx := .waiting, txQueue := [ann, status] } } ∧
      ann.announces (s.started memory).control true ∧ status.showsState (s.started memory).control.state := by
  have active : (s.started memory).link = { Link.afterReset with rx := .seeking } := by
    rw [started_link, link]
    rfl
  have room : (s.started memory).hasRoomFor 1 := by
    rw [State.hasRoomFor, active]
    decide
  have announced := queueAnnounce_fits (s := s.started memory) true room
  have more : ((s.started memory).queueAnnounce true).hasRoomFor 1 := by
    rw [announced, active]
    exact show 2 ≤ Config.txCapacity by decide
  refine ⟨(s.started memory).announceNotice true, ((s.started memory).queueAnnounce true).statusNotice 0, ?_,
    announceNotice_announces _ true, ?_⟩
  · rw [endStarting_eq, queueStatus_fits _ more, announced, active]
    rfl
  · have shown := statusNotice_showsState ((s.started memory).queueAnnounce true)
    rw [announced] at shown ⊢
    exact shown

theorem loadedBytes_length_of_good {memory : List Byte} (good : structurallyGood (loadedBytes memory) = true) :
    (loadedBytes memory).length = 504 := by
  have head : (loadedBytes memory).take 4 = imageHead := by
    simp only [structurallyGood, Bool.and_eq_true, beq_iff_eq] at good
    exact good.1
  have bytes (n : Nat) : (memoryBytes memory n).length = n := by simp [memoryBytes]
  unfold loadedBytes at head ⊢
  split
  · exact bytes imageLength
  · next wrong =>
    rw [if_neg wrong, List.take_of_length_le (bytes 4).le] at head
    exact absurd head wrong

theorem structurallyGood_of_good {img : List Byte} {id : BitVec 16} {config : Configuration}
    (good : checkImage img = .good id config) : structurallyGood img = true := by
  unfold checkImage at good
  split at good
  · assumption
  · cases good

/-- Settles O5. -/
theorem goodImageMakesReady : Obligations.GoodImageMakesReady := by
  unfold Obligations.GoodImageMakesReady
  intro memory id config s state hold link good
  obtain ⟨ann, status, queued, announces, shows⟩ := endStarting_eq_queued (memory := memory) link
  have length := loadedBytes_length_of_good (structurallyGood_of_good good)
  have control : (s.started memory).control = { s.control with
      state := .ready, config := some config, configuredMask := usableMask config, faultOffset := 0,
      imageId := id } := by rw [started_control, good]; rfl
  have loader : (s.started memory).loader = s.loader.finish (loadedBytes memory) := started_loader memory s
  refine ⟨_, ann, status, (endStarting_loading state hold).trans (congrArg _ queued), control, ?_, rfl, announces, ?_, ?_,
    ?_, ?_, started_sched .., started_pulser .., started_tracker .., started_judge .., started_cover ..,
    started_pair .., started_pins .., started_hold .., started_pending ..⟩
  · exact (started_odo memory s).trans (by rw [good]; rfl)
  · rwa [control] at shows
  · exact congrArg Loader.selected loader
  · exact (congrArg (fun l => l.image.length) loader).trans length
  · refine (congrArg Loader.clocks loader).trans ?_
    show loadClocks (loadedBytes memory).length = 4056
    rw [length]
    rfl

/-- Settles O6. -/
theorem badImageMakesUnconfigured : Obligations.BadImageMakesUnconfigured := by
  unfold Obligations.BadImageMakesUnconfigured
  intro memory s state hold link id offset bad
  obtain ⟨ann, status, queued, announces, shows⟩ := endStarting_eq_queued (memory := memory) link
  have control : (s.started memory).control =
      { s.control with state := .unconfigured, faultOffset := offset, imageId := id } := by
    rw [started_control]
    rcases bad with ⟨bad, rfl, rfl⟩ | bad <;> rw [bad] <;> rfl
  refine ⟨_, ann, status, (endStarting_loading state hold).trans (congrArg _ queued), control, ?_, rfl, announces, ?_,
    started_sched .., started_pulser .., started_tracker .., started_judge .., started_cover .., started_pair ..,
    started_pins .., started_hold .., started_pending ..⟩
  · refine (started_odo memory s).trans ?_
    rw [← started_control, control]
    rfl
  · rwa [control] at shows

/-! ## Lines, decoder and edges (R3 to R9) -/

/-- Settles O7. -/
theorem lineChangesTimeTheFilters : Obligations.LineChangesTimeTheFilters := by
  unfold Obligations.LineChangesTimeTheFilters
  intro line level s
  refine ⟨fun active changed => ?_, fun still => ?_, fun active changed => ?_, fun still => ?_⟩
  · refine congrArg Host.Outcome.next ((if_pos ⟨active, changed⟩).trans ?_)
    cases line <;> rfl
  · refine congrArg Host.Outcome.next (if_neg ?_)
    rintro ⟨active, changed⟩
    rcases still with inactive | same
    · exact Bool.noConfusion (active.symm.trans inactive)
    · exact changed same
  · exact congrArg Host.Outcome.next (if_pos ⟨active, changed⟩)
  · refine congrArg Host.Outcome.next (if_neg ?_)
    rintro ⟨active, changed⟩
    rcases still with inactive | same
    · exact Bool.noConfusion (active.symm.trans inactive)
    · exact changed same

/-- Settles O8, pair by pair. -/
theorem decoderFollowsForwardOrder : Obligations.DecoderFollowsForwardOrder := by
  unfold Obligations.DecoderFollowsForwardOrder
  intro forward a b a' b'
  cases a <;> cases b <;> cases a' <;> cases b' <;> decide

theorem extremeAfter_forward (extreme p : FinePos) :
    (extremeAfter .forward extreme p).micros = max extreme.micros p.micros := by
  show (if extreme.micros < p.micros then p else extreme).micros = _
  split <;> omega

theorem extremeAfter_backward (extreme p : FinePos) :
    (extremeAfter .backward extreme p).micros = min extreme.micros p.micros := by
  show (if p.micros < extreme.micros then p else extreme).micros = _
  split <;> omega

theorem reverses_iff (h : Nat) (p : FinePos) (o : Odometer) : o.reverses h p = true ↔
    1000 * (h : Int) ≤ comeBack o.direction (extremeAfter o.direction o.extreme p) p := decide_eq_true_iff

/-- Direction and extreme point after an edge, by whether it reverses. -/
theorem edge_direction (pitch h : Nat) (d : Int) (o : Odometer) :
    (o.reverses h (o.pos.move d) = true →
      (o.edge pitch h d).direction = o.direction.flip ∧ (o.edge pitch h d).extreme = o.pos.move d) ∧
    (o.reverses h (o.pos.move d) = false →
      (o.edge pitch h d).direction = o.direction ∧
        (o.edge pitch h d).extreme = extremeAfter o.direction o.extreme (o.pos.move d)) := by
  refine ⟨fun rev => ?_, fun rev => ?_⟩ <;> simp [Odometer.edge, rev]

/-- Settles O10. -/
theorem reversalTakesTheHysteresis : Obligations.ReversalTakesTheHysteresis := by
  unfold Obligations.ReversalTakesTheHysteresis
  intro pitch h d o p n
  obtain ⟨turns, goes⟩ := edge_direction pitch h d o
  have back := reverses_iff h p o
  refine ⟨fun dir => ?_, fun dir => ?_⟩ <;> rw [dir] at turns goes back
  · rw [comeBack, extremeAfter_forward] at back
    exact ⟨fun far => turns (back.2 far), fun near => goes (Bool.eq_false_iff.2 (mt back.1 (by omega)))⟩
  · rw [comeBack, extremeAfter_backward] at back
    exact ⟨fun far => turns (back.2 far), fun near => goes (Bool.eq_false_iff.2 (mt back.1 (by omega)))⟩

/-! ## Both lines at once (R6) -/

theorem decodeEdge_both (invert : Bool) {a b a' b' : Level} (ha : a' ≠ a) (hb : b' ≠ b) :
    decodeEdge invert a b a' b' = .illegal := by
  match a, a', b, b', ha, hb with
  | .low, .high, .low, .high, _, _ => rfl
  | .low, .high, .high, .low, _, _ => rfl
  | .high, .low, .low, .high, _, _ => rfl
  | .high, .low, .high, .low, _, _ => rfl
  | .low, .low, _, _, same, _ => exact absurd rfl same
  | .high, .high, _, _, same, _ => exact absurd rfl same
  | _, _, .low, .low, _, same => exact absurd rfl same
  | _, _, .high, .high, _, same => exact absurd rfl same

theorem accept_both {o : Odometer} {rawA rawB : Level} (ha : o.timingA.isSome = true) (hb : o.timingB.isSome = true) :
    o.accept .both rawA rawB =
      { o with filteredA := rawA, filteredB := rawB, timingA := none, timingB := none } := by
  simp [Odometer.accept, ha, hb]

/-- A drop in a TXQ_FULL episode only counts. -/
theorem dropping_marked (d : Drops) (mark : s.control.episodes.txqFull = true) :
    s.dropping d = { s with link := { s.link with drops := d } } := by
  obtain ⟨odo, sched, pulser, tracker, judge, cover, pair, link, control, loader, hold, pins, free, pending⟩ := s
  obtain ⟨state, address, rail, cause, config, cmask, emask, offset, image, run, pend, faults, episodes, still⟩ := control
  obtain ⟨chainFull, txqFull, overrun⟩ := episodes
  obtain rfl : txqFull = true := mark
  rfl

/-- A drop that begins a TXQ_FULL episode, with room in the fault file. -/
theorem dropping_clear (d : Drops) (mark : s.control.episodes.txqFull = false)
    (overflow : s.control.faults.overflow = false) (file : s.control.faults.records.length < 8) :
    s.dropping d = { s with
      link := { s.link with drops := { d with other := min (d.other + 1) 65535 } }
      control := { s.control with
        episodes := { s.control.episodes with txqFull := true }
        faults := { s.control.faults with records := s.control.faults.records ++ [s.faultRecord .txqFull 0] } } } := by
  have begins : (!s.control.episodes.txqFull && !s.control.faults.overflow) = true := by rw [mark, overflow]; rfl
  unfold State.dropping
  simp only [begins, if_true, Bool.not_true, if_false, Bool.false_eq_true, Nat.not_le.2 file]
  rfl

/-- A report with room in the fault file that finds the transmit queue full. -/
theorem reportFault_dropped {k : FaultKind} {a : BitVec 4} (overflow : s.control.faults.overflow = false)
    (file : s.control.faults.records.length < 8) (full : 24 ≤ s.link.txQueue.length) :
    s.reportFault k a =
      (s.modControl fun c =>
        { c with faults := { c.faults with records := c.faults.records ++ [s.faultRecord k a] } }).dropping
          { s.link.drops with other := bump s.link.drops.other } := by
  rw [reportFault_room s k a overflow file, append_dropped _ (by exact full)]
  rfl

/-- Settles O11, by the room in the file and in the queue. -/
theorem illegalTransitionRecordsAFault : Obligations.IllegalTransitionRecordsAFault := by
  unfold Obligations.IllegalTransitionRecordsAFault
  intro peaks s active timingA timingB movedA movedB moved file position record recorded
  have worked : exec (.encoderLevelAccepted .both peaks) s = .next (moved.reportFault .encoder 0) := by
    refine congrArg Host.Outcome.next ((if_pos active).trans ?_)
    rw [State.acceptLevels, State.modOdo, accept_both timingA timingB, decodeEdge_both _ movedA movedB]
  rw [worked]
  refine ⟨fun overflow => ?_, fun overflow records room => ?_, fun overflow records room => ?_, fun overflow records full mark => ?_,
    fun overflow records full mark => ?_⟩
  · rw [reportFault_overflowed moved _ _ overflow]
  · refine ⟨_, faultNotice_reports _ _, ?_⟩
    rw [reportFault_fits moved .encoder 0 overflow records room]
    rfl
  · refine ⟨moved.overflowNotice, faultNotice_reports _ _, ?_⟩
    rw [reportFault_full moved .encoder 0 overflow (Nat.not_lt.2 records), append_fits _ (by exact room)]
    rfl
  · rw [reportFault_dropped (s := moved) overflow records full, dropping_marked _ (by exact mark)]
    rfl
  · rw [reportFault_dropped (s := moved) overflow (show file.records.length < 8 by omega) full, dropping_clear _ (by exact mark) (by exact overflow)]
    · have drops : min (bump s.link.drops.other + 1) 65535 = min (s.link.drops.other + 2) 65535 := by
        simp only [bump, sat16, Config.counterMax]
        omega
      have index : (recorded).nextIndex = min (file.firstIndex + file.records.length + 1) 65535 := by
        rw [FaultFile.nextIndex, List.length_append, List.length_singleton, ← Nat.add_assoc]
        rfl
      rw [← drops, ← index]
      rfl
    · show (file.records ++ [record]).length < 8
      rw [List.length_append, List.length_singleton]
      omega

end Sys2Proof.Machine
end

section
/-! SUPPORT. Stillness, the settle with nothing due, the order in which shots are formed and the update of a fired element;
then the theorems that settle O12, O16, O18 and O19. -/

namespace Sys2Proof.Machine

variable {s : State}

/-! ## Stillness (R10, R32, R166) -/

theorem schedStill_eq (s : State) : s.schedStill = { s with
    sched := { s.sched with state :=
      match s.sched.state with
      | .listening shot => .listening shot
      | .recovering n => .recovering n
      | _ => .off }
    pulser := { s.pulser with hv :=
      match s.sched.state with
      | .listening _ => s.pulser.hv
      | .recovering _ => s.pulser.hv
      | _ => .off } } := by
  obtain ⟨odo, ⟨state, element⟩, pulser, tracker, judge, cover, pair, link, control, loader, hold, pins, free, pending⟩ := s
  cases state <;> rfl

theorem tellStill_running (state : s.control.state = .running) : s.tellStill = s.enterStill := by
  rw [State.tellStill, state]

theorem tellStill_other (state : s.control.state ≠ .running) : s.tellStill = s := by
  unfold State.tellStill
  cases now : s.control.state with
  | running => exact absurd now state
  | _ => rfl

theorem enterStill_fits (room : s.hasRoomFor 1) : s.enterStill =
    let t := (s.setStation .still).schedStill
    { t with link := s.link.queueing [t.statusNotice 0] } := by
  rw [State.enterStill, queueStatus_fits]
  · rw [schedStill_eq]
    rfl
  · rw [schedStill_eq]
    exact room

/-- Settles O12. -/
theorem stillnessTakesRunningToStill : Obligations.StillnessTakesRunningToStill := by
  unfold Obligations.StillnessTakesRunningToStill
  intro s active mark marked
  have worked : exec .stillness s = .next marked.tellStill := by
    refine congrArg Host.Outcome.next (if_pos ?_)
    rw [active, mark]
    rfl
  rw [worked]
  refine ⟨fun state => by rw [tellStill_other (by exact state)], fun state room => ?_⟩
  have entered := (tellStill_running (s := marked) state).trans (enterStill_fits (by exact room))
  refine ⟨((marked.setStation .still).schedStill).statusNotice 0, ?_, ?_⟩
  · have shown := statusNotice_showsState (marked.setStation .still).schedStill
    rw [schedStill_eq] at shown ⊢
    exact shown
  · rw [entered, schedStill_eq]
    rfl

/-! ## Shot forming (R20, R21) -/

theorem mem_insertDue (n : Element → Nat) (e x : Element) (l : List Element) :
    x ∈ insertDue n e l ↔ x = e ∨ x ∈ l := by
  induction l with
  | nil => simp [insertDue]
  | cons f rest ih =>
    rw [insertDue]
    split
    · simp
    · simp [ih, or_left_comm]

/-- Before by next-due travel and, among equals, by number. -/
def dueBefore (n : Element → Nat) (a b : Element) : Prop := n a < n b ∨ (n a = n b ∧ a < b)

theorem insertDue_sorted (n : Element → Nat) {e : Element} {l : List Element} (lower : ∀ x ∈ l, e < x)
    (sorted : l.Pairwise (dueBefore n)) : (insertDue n e l).Pairwise (dueBefore n) := by
  induction l with
  | nil => simp [insertDue]
  | cons f rest ih =>
    obtain ⟨first, later⟩ := List.pairwise_cons.1 sorted
    have e_lt : e < f := lower f (List.mem_cons_self ..)
    rw [insertDue]
    split
    · next le =>
      have before : dueBefore n e f := (Nat.lt_or_eq_of_le le).imp_right fun eq => ⟨eq, e_lt⟩
      refine List.pairwise_cons.2 ⟨fun x mem => ?_, sorted⟩
      rcases List.mem_cons.1 mem with rfl | mem
      · exact before
      · rcases first x mem with lt | ⟨eq, -⟩
        · exact .inl (Nat.lt_of_le_of_lt le lt)
        · exact (Nat.lt_or_eq_of_le (eq ▸ le)).imp_right fun same => ⟨same, lower x (List.mem_cons_of_mem _ mem)⟩
    · next gt =>
      refine List.pairwise_cons.2 ⟨fun x mem => ?_, ih (fun x mem => lower x (List.mem_cons_of_mem _ mem)) later⟩
      rcases (mem_insertDue n e x rest).1 mem with rfl | mem
      · exact .inl (Nat.not_le.1 gt)
      · exact first x mem

theorem foldr_insertDue (n : Element → Nat) {l : List Element} (increasing : l.Pairwise (· < ·)) :
    (l.foldr (insertDue n) []).Pairwise (dueBefore n) ∧ ∀ x, x ∈ l.foldr (insertDue n) [] ↔ x ∈ l := by
  induction l with
  | nil => simp
  | cons e rest ih =>
    obtain ⟨lower, later⟩ := List.pairwise_cons.1 increasing
    obtain ⟨sorted, mem⟩ := ih later
    refine ⟨insertDue_sorted n (fun x h => lower x ((mem x).1 h)) sorted, fun x => ?_⟩
    rw [List.foldr_cons, mem_insertDue, mem, List.mem_cons]

theorem dueOrder_sorted (s : State) : s.dueOrder.Pairwise (dueBefore s.nextDue) :=
  (foldr_insertDue s.nextDue (elements_sorted.filter _)).1

theorem mem_dueOrder (s : State) (e : Element) : e ∈ s.dueOrder ↔
    s.control.enableMask.get e = true ∧ (s.sched.element.get e).nextDue ≤ s.odo.travel := by
  rw [State.dueOrder, (foldr_insertDue s.nextDue (elements_sorted.filter _)).2]
  have due : e ∈ elements.filter s.due ↔ s.control.enableMask.get e = true ∧ s.nextDue e ≤ s.odo.travel := by
    simp [mem_elements, State.due]
  exact due

/-- One element considered for the shot (R21). -/
def takeStep (c : StationSection) (taken : List Element) (e : Element) : List Element :=
  if taken.isEmpty || (taken.length < c.perShotLimit && taken.all fun f => compatible c e f) then taken ++ [e] else taken

theorem takeShot_eq (c : StationSection) (order : List Element) : takeShot c order = order.foldl (takeStep c) [] := rfl

/-- The element is taken in its turn. -/
def takesTurn (c : StationSection) (taken : List Element) (e : Element) : Prop :=
  taken = [] ∨ (taken.length < c.perShotLimit ∧ ∀ f ∈ taken, compatible c e f = true)

theorem takeStep_pos {c : StationSection} {taken : List Element} {e : Element} (h : takesTurn c taken e) :
    takeStep c taken e = taken ++ [e] := by
  rw [takeStep, if_pos]
  simpa [takesTurn] using h

theorem takeStep_neg {c : StationSection} {taken : List Element} {e : Element} (h : ¬ takesTurn c taken e) :
    takeStep c taken e = taken := by
  rw [takeStep, if_neg]
  simpa [takesTurn] using h

/-- What the turns of further elements add to a shot. -/
theorem foldl_takeStep (c : StationSection) (order : List Element) : ∀ taken : List Element,
    ∃ more, order.foldl (takeStep c) taken = taken ++ more ∧ more.Sublist order := by
  induction order with
  | nil => exact fun taken => ⟨[], by simp, .slnil⟩
  | cons e rest ih =>
    intro taken
    rw [List.foldl_cons]
    by_cases h : takesTurn c taken e
    · obtain ⟨more, eq, sub⟩ := ih (taken ++ [e])
      exact ⟨e :: more, by rw [takeStep_pos h, eq]; simp, sub.cons_cons e⟩
    · obtain ⟨more, eq, sub⟩ := ih taken
      exact ⟨more, by rw [takeStep_neg h, eq], sub.cons e⟩

/-- What every turn keeps of a shot: no more than the limit, and every two compatible. -/
theorem takeShot_limited {c : StationSection} (limit : 1 ≤ c.perShotLimit) (order : List Element) :
    (takeShot c order).length ≤ c.perShotLimit ∧ (takeShot c order).Pairwise fun a b => compatible c b a = true := by
  rw [takeShot_eq]
  refine List.foldlRecOn order (takeStep c)
    (motive := fun taken => taken.length ≤ c.perShotLimit ∧ taken.Pairwise fun a b => compatible c b a = true)
    ⟨Nat.zero_le _, .nil⟩ ?_
  rintro taken ⟨short, pairs⟩ e -
  by_cases h : takesTurn c taken e
  · rw [takeStep_pos h]
    rcases h with rfl | ⟨fewer, fit⟩
    · exact ⟨limit, List.pairwise_singleton _ _⟩
    · refine ⟨by simpa using fewer, List.pairwise_append.2 ⟨pairs, List.pairwise_singleton _ _, fun a ha b hb => ?_⟩⟩
      rw [List.mem_singleton.1 hb]
      exact fit a ha
  · rw [takeStep_neg h]
    exact ⟨short, pairs⟩

theorem takeShot_head (c : StationSection) (order : List Element) : (takeShot c order).head? = order.head? := by
  cases order with
  | nil => rfl
  | cons e rest =>
    obtain ⟨more, eq, -⟩ := foldl_takeStep c rest [e]
    rw [takeShot_eq, List.foldl_cons, takeStep_pos (.inl rfl), List.nil_append, eq]
    rfl

theorem takeShot_sublist (c : StationSection) (order : List Element) : (takeShot c order).Sublist order := by
  obtain ⟨more, eq, sub⟩ := foldl_takeStep c order []
  rw [takeShot_eq, eq]
  simpa using sub

theorem takeShot_ne_nil {c : StationSection} {order : List Element} {e : Element} (mem : e ∈ order) :
    takeShot c order ≠ [] := by
  intro empty
  have head := takeShot_head c order
  rw [empty, List.head?_nil] at head
  rw [List.head?_eq_none_iff.1 head.symm] at mem
  cases mem

/-- At an element's turn, the shot so far is what is taken of the elements before it. -/
theorem takeShot_turn {c : StationSection} {before after : List Element} {e : Element}
    (distinct : (before ++ e :: after).Nodup) :
    let taken := takeShot c (before ++ e :: after)
    taken.filter (fun f => before.contains f) = takeShot c before ∧
      (e ∈ taken ↔ takesTurn c (takeShot c before) e) := by
  intro taken
  obtain ⟨-, distinct_rest, apart⟩ := List.nodup_append.1 distinct
  have sub := takeShot_sublist c before
  have absent : e ∉ takeShot c before := fun mem => apart e (sub.subset mem) e (List.mem_cons_self ..) rfl
  obtain ⟨more, eq, more_sub⟩ := foldl_takeStep c after (takeStep c (takeShot c before) e)
  have whole : taken = takeStep c (takeShot c before) e ++ more := by
    rw [← eq]
    simp [taken, takeShot_eq, List.foldl_append]
  have e_not_more : e ∉ more := fun mem => (List.nodup_cons.1 distinct_rest).1 (more_sub.subset mem)
  have kept : (takeShot c before).filter (fun f => before.contains f) = takeShot c before :=
    List.filter_eq_self.2 fun f mem => by simpa using sub.subset mem
  have gone : more.filter (fun f => before.contains f) = [] :=
    List.filter_eq_nil_iff.2 fun f mem => by
      simpa using fun old => apart f old f (List.mem_cons_of_mem _ (more_sub.subset mem)) rfl
  have e_gone : [e].filter (fun f => before.contains f) = [] :=
    List.filter_eq_nil_iff.2 fun f mem => by
      rw [List.mem_singleton.1 mem]
      simpa using fun old => apart e old e (List.mem_cons_self ..) rfl
  rw [whole]
  by_cases turn : takesTurn c (takeShot c before) e
  · rw [takeStep_pos turn, List.filter_append, List.filter_append, kept, gone, e_gone]
    exact ⟨by simp, by simp [turn]⟩
  · rw [takeStep_neg turn, List.filter_append, kept, gone]
    exact ⟨by simp, by simp [absent, e_not_more, turn]⟩

/-- Settles O18. -/
theorem shotsAreCompatibleAndLimited : Obligations.ShotsAreCompatibleAndLimited := by
  unfold Obligations.ShotsAreCompatibleAndLimited
  refine ⟨fun s => ⟨dueOrder_sorted s, mem_dueOrder s⟩, fun c order limit => ?_⟩
  intro taken
  obtain ⟨short, pairs⟩ := takeShot_limited limit order
  refine ⟨takeShot_head c order, takeShot_sublist c order, short, pairs, ?_⟩
  rintro before e after rfl distinct earlier
  obtain ⟨so_far, turn⟩ := takeShot_turn (c := c) distinct
  have eq : earlier = takeShot c before := so_far
  rw [eq]
  refine ⟨turn, fun passed => ?_⟩
  have no_turn := mt turn.2 passed
  simp only [takesTurn, not_or, not_and, not_forall] at no_turn
  rcases Nat.lt_or_ge (takeShot c before).length c.perShotLimit with fewer | full
  · obtain ⟨f, mem, bad⟩ := no_turn.2 fewer
    exact .inr ⟨f, mem, Bool.eq_false_iff.2 bad⟩
  · exact .inl (Nat.le_antisymm (takeShot_limited limit before).1 full)

/-! ## The settle with nothing due (R28, R29) -/

theorem dueOrder_eq_nil (nothing : s.nothingDue s.odo.travel) : s.dueOrder = [] := by
  refine List.eq_nil_iff_forall_not_mem.2 fun e mem => ?_
  obtain ⟨on, due⟩ := (mem_dueOrder s e).1 mem
  exact absurd due (Nat.not_le.2 (nothing e on))

theorem formed_eq_nil (nothing : s.nothingDue s.odo.travel) : s.formed = [] := by
  rw [State.formed, dueOrder_eq_nil nothing]
  split <;> rfl

theorem attempt_nothing {ord : Nat → Nat → Nat} {peaks : Eight Nat} (none : s.formed = []) : s.attempt ord peaks = s := by
  rw [State.attempt, none]
  rfl

theorem onSettleComplete_settling {ord : Nat → Nat → Nat} {peaks : Eight Nat} {n : Nat} (hv : s.pulser.hv = .settling n) :
    s.onSettleComplete ord peaks = s.endSettle ord peaks := by rw [State.onSettleComplete, hv]

/-- Settles O16. -/
theorem settleCompleteReadiesThePulsers : Obligations.SettleCompleteReadiesThePulsers := by
  unfold Obligations.SettleCompleteReadiesThePulsers
  intro peaks n s hv
  have worked : exec (.settleComplete peaks) s = .next (s.endSettle Config.order peaks) :=
    congrArg Host.Outcome.next (onSettleComplete_settling hv)
  rw [worked, State.endSettle]
  refine ⟨fun other => ?_, fun settling running nothing => ?_⟩
  · rw [if_neg]
    · rfl
    · rintro ⟨settling, running⟩
      exact other.elim (· settling) (· running)
  · rw [if_pos ⟨settling, running⟩, attempt_nothing (formed_eq_nil (by exact nothing))]
    rfl

/-! ## The update of a fired element (R23, R24) -/

theorem fireElement_onGrid {t d : Nat} {e : ElementSched} (h : t - e.nextDue < d) :
    fireElement t d e = { e with
      nextDue := e.nextDue + d
      onGrid := min (e.onGrid + 1) 8
      undersampled := e.undersampled && e.onGrid + 1 != 8 } := if_pos h

theorem fireElement_skips {t d : Nat} {e : ElementSched} (h : d ≤ t - e.nextDue) :
    fireElement t d e =
      { nextDue := e.nextDue + ((t - e.nextDue) / d + 1) * d
        skipCount := min (e.skipCount + (t - e.nextDue) / d) 255
        onGrid := 0
        undersampled := true } := if_neg (Nat.not_lt.2 h)

/-- Settles O19, by whether the firing lags a pitch or more. -/
theorem firingMovesToTheNextGridPoint : Obligations.FiringMovesToTheNextGridPoint := by
  unfold Obligations.FiringMovesToTheNextGridPoint
  intro t d e pos due lag n
  rcases Nat.lt_or_ge lag d with near | far
  · have eq : n = _ := fireElement_onGrid near
    rw [eq]
    refine ⟨fun _ => ⟨rfl, rfl, rfl⟩, fun h => absurd near (Nat.not_lt.2 h), fun h => absurd near (Nat.not_lt.2 h.ge),
      fun _ seven => ?_, fun _ other => ?_, fun h => absurd near (Nat.not_lt.2 h), ?_, ?_, ?_⟩
    · simp [seven]
    · simp [other]
    · show t < e.nextDue + d
      omega
    · show e.nextDue + d ≤ t + d
      omega
    · exact ⟨1, by simp⟩
  · have eq : n = _ := fireElement_skips far
    have divided : d * (lag / d) + lag % d = lag := Nat.div_add_mod lag d
    have remainder : lag % d < d := Nat.mod_lt lag pos
    have step : (lag / d + 1) * d = d * (lag / d) + d := by ring
    rw [eq]
    refine ⟨fun h => absurd h (Nat.not_lt.2 far), fun _ => ⟨rfl, rfl, rfl⟩, fun same => ?_,
      fun h => absurd h (Nat.not_lt.2 far), fun h => absurd h (Nat.not_lt.2 far), fun _ => rfl, ?_, ?_, ?_⟩
    · show min (e.skipCount + lag / d) 255 = _
      rw [same, Nat.div_self pos]
    · show t < e.nextDue + (lag / d + 1) * d
      omega
    · show e.nextDue + (lag / d + 1) * d ≤ t + d
      omega
    · exact ⟨lag / d + 1, by rw [Nat.add_sub_cancel_left, Nat.mul_comm]⟩

end Sys2Proof.Machine
end

section
/-! SUPPORT. The head frame leaving the transmit queue, the frame end, and the pulses on the line; then the theorems that
settle O37 to O40 and O42 to O44. -/

namespace Sys2Proof.Machine

variable {s : State}

/-! ## The head frame leaves the queue (R144, R145, R149) -/

/-- Station control once the transmit queue has fallen to `n` frames: 12 ends a TXQ_FULL episode. -/
def Control.relieved (n : Nat) (c : Control) : Control :=
  { c with episodes := { c.episodes with txqFull := if n = 12 then false else c.episodes.txqFull } }

theorem popHead_eq (s : State) : s.popHead = { s with
    link := { s.link with
      txQueue := s.link.txQueue.tail, tx := if s.link.txQueue.tail = [] then .idle else .waiting }
    control := s.control.relieved s.link.txQueue.tail.length } := by
  have tx : (if s.link.txQueue.tail.isEmpty then TxState.idle else TxState.waiting) =
      if s.link.txQueue.tail = [] then .idle else .waiting := by simp only [List.isEmpty_iff]
  unfold State.popHead Control.relieved
  simp only [tx]
  by_cases low : s.link.txQueue.tail.length = 12
  · rw [if_pos (show _ = Config.txRelief from low), if_pos low]
    rfl
  · rw [if_neg (show ¬ _ = Config.txRelief from low), if_neg low]
    rfl

theorem transmitError_eq (s : State) : s.transmitError = { s with
    link := { s.link with
      txQueue := s.link.txQueue.tail, tx := if s.link.txQueue.tail = [] then .idle else .waiting
      counts := { s.link.counts with txError := min (s.link.counts.txError + 1) 65535 } }
    control := s.control.relieved s.link.txQueue.tail.length } := by
  rw [State.transmitError, popHead_eq]
  rfl

/-! ## The frame end (R138, R139, R145, R150 to R152) -/

theorem onFrameEnd_frame {bits : List Bool} {cut : Option Nat} (rx : s.link.rx = .frame bits cut)
    (silent : s.link.pulse = none) :
    s.onFrameEnd =
      let t : State := { s with link := { s.link with rx := .seeking, quiet := max s.link.quiet 600 } }
      if s.link.tx = .sending then t.endOwnFrame bits else t.judgeFrame bits cut := by
  rw [State.onFrameEnd, rx, silent]
  rfl

theorem onFrameEnd_pulse (pulse : s.link.pulse ≠ none) : s.onFrameEnd = s := by
  obtain ⟨held, pulse⟩ := Option.ne_none_iff_exists'.1 pulse
  cases rx : s.link.rx <;> simp [State.onFrameEnd, rx, pulse]

theorem ownBits_cons {l : Link} {own : Frame} {rest : List Frame} (queue : l.txQueue = own :: rest) :
    l.ownBits = own.bits := by
  rw [Link.ownBits, queue]
  rfl

/-- Settles O37. -/
theorem ownFrameHeardBackIsSent : Obligations.OwnFrameHeardBackIsSent := by
  unfold Obligations.OwnFrameHeardBackIsSent
  intro own rest cut s sending queue rx silent
  have worked := onFrameEnd_frame rx silent
  rw [if_pos sending, State.endOwnFrame, if_pos (ownBits_cons (by exact queue)).symm, popHead_eq] at worked
  refine (congrArg Host.Outcome.next worked).trans ?_
  simp only [State.count_eq, State.modLink, Link.count, queue, List.tail_cons]
  rfl

theorem enterQueue_room (f : Frame) (room : s.link.rxQueue.length < 4) :
    s.enterQueue f = { s with link := { s.link with rxQueue := s.link.rxQueue ++ [f] } } := if_pos room

theorem enterQueue_full (f : Frame) (full : s.link.rxQueue.length = 4) :
    s.enterQueue f = (s.count Outcomes.countOverrun).reportRxqOverrun :=
  if_neg (show ¬ s.link.rxQueue.length < 4 by omega)

theorem reportRxqOverrun_again (mark : s.control.episodes.rxqOverrun = true) : s.reportRxqOverrun = s := if_pos mark

theorem reportRxqOverrun_first (mark : s.control.episodes.rxqOverrun = false) :
    s.reportRxqOverrun = (s.markRxqOverrun true).reportFault .rxqOverrun 0 :=
  if_neg (by rw [mark]; exact Bool.noConfusion)

/-- Settles O38, check by check. -/
theorem receivedFramesAreJudged : Obligations.ReceivedFramesAreJudged := by
  unfold Obligations.ReceivedFramesAreJudged
  refine ⟨fun s pulse => congrArg Host.Outcome.next (onFrameEnd_pulse pulse), ?_⟩
  intro bits s other rx silent ended
  let t : State := { s with link := ended }
  have worked : exec .frameEnd s = .next (t.judgeFrame bits none) :=
    congrArg Host.Outcome.next ((onFrameEnd_frame rx silent).trans (if_neg other))
  refine ⟨?_, fun bad => by rw [worked, State.judgeFrame, bad]; rfl, fun f good foreign => ?_⟩
  · rintro (bad | bad) <;> rw [worked, State.judgeFrame, bad] <;> rfl
  · intro received
    have judged : exec .frameEnd s = .next (t.acceptGood f) := by rw [worked, State.judgeFrame, good]
    rw [judged]
    refine ⟨fun request elsewhere => ?_, fun ours => ?_⟩
    · have others : t.notForUs f = true := by
        rw [notForUs_of_request (s := t) request, Bool.not_eq_true']
        exact elsewhere
      exact congrArg Host.Outcome.next (acceptGood_other (s := t) (by exact foreign) others)
    · have mine : t.notForUs f = false := by
        cases request : f.isRequest with
        | false => exact notForUs_of_notRequest (s := t) request
        | true =>
          have included := ours.resolve_left (by rw [request]; exact Bool.noConfusion)
          rw [notForUs_of_request (s := t) request]
          simpa using included
      have accepted : t.acceptGood f = (t.count Outcomes.countReceived).enterQueue f :=
        acceptGood_ours (s := t) (by exact foreign) mine
      rw [accepted]
      refine ⟨fun room => ?_, fun full mark => ?_, fun full mark overflow records room => ?_⟩
      · rw [enterQueue_room _ (by exact room)]
        rfl
      · rw [enterQueue_full _ (by exact full), reportRxqOverrun_again (by exact mark)]
        rfl
      · rw [enterQueue_full _ (by exact full), reportRxqOverrun_first (by exact mark),
          reportFault_fits _ .rxqOverrun 0 (by exact overflow) (by exact records) (by exact room)]
        exact ⟨_, faultNotice_reports _ _, rfl⟩

/-- Settles O39. -/
theorem ownAddressFromAnotherIsAClash : Obligations.OwnAddressFromAnotherIsAClash := by
  unfold Obligations.OwnAddressFromAnotherIsAClash
  intro bits f s other rx silent good own overflow records room record
  have worked := (onFrameEnd_frame rx silent).trans (if_neg other)
  rw [State.judgeFrame, good] at worked
  refine ⟨faultNotice s.control.address record, faultNotice_reports _ _, (congrArg Host.Outcome.next worked).trans ?_⟩
  show Host.Outcome.next (State.acceptGood f _) = _
  rw [State.acceptGood, if_pos (by exact own),
    reportFault_fits _ .addressClash f.source (by exact overflow) (by exact records) (by exact room)]
  rfl

/-! ## Bits heard (R137, R143, R144) -/

section
variable {bits : List Bool} {cut : Option Nat} {b : Bool}

theorem hearBit_collected (same : s.link.tx ≠ .sending ∨ s.link.ownBits[bits.length]? = some b) :
    s.hearBit bits cut b = { s with link := { s.link with rx := .frame (bits ++ [b]) cut } } := by
  refine if_neg ?_
  rintro ⟨sending, differs⟩
  exact same.elim (· sending) differs

theorem hearBit_lost (sending : s.link.tx = .sending) (driven : s.link.ownBits[bits.length]? = some true)
    (zero : b = false) (early : bits.length < 16) :
    s.hearBit bits cut b = { s with link := { s.link with
      rx := .frame (bits ++ [b]) cut, tx := .backedOff
      counts := { s.link.counts with lost := min (s.link.counts.lost + 1) 65535 } } } := by
  rw [State.hearBit, if_pos ⟨sending, by rw [driven, zero]; decide⟩, if_pos ⟨driven, early⟩]
  rfl

theorem hearBit_error (sending : s.link.tx = .sending) (differs : s.link.ownBits[bits.length]? ≠ some b)
    (no_loss : s.link.ownBits[bits.length]? ≠ some true ∨ 16 ≤ bits.length) :
    s.hearBit bits cut b =
      ({ s with link := { s.link with rx := .frame (bits ++ [b]) (some (bits.length + 1)) } } : State).transmitError := by
  rw [State.hearBit, if_pos ⟨sending, differs⟩, if_neg]
  · rw [List.length_append, List.length_singleton]
    rfl
  · rintro ⟨driven, early⟩
    exact no_loss.elim (· driven) (Nat.not_le.2 early)

theorem hearPulse_bit (rx : s.link.rx = .frame bits cut) :
    s.hearPulse (.bit b) = (s.modLink Link.release).hearBit bits cut b := by
  rw [State.hearPulse, rx]

theorem drivenBit_frame (sending : s.link.tx = .sending) (rx : s.link.rx = .frame bits cut) :
    s.drivenBit = s.link.ownBits[bits.length]? := by
  rw [State.drivenBit, sending, rx]

theorem bitPlace_frame (rx : s.link.rx = .frame bits cut) : s.bitPlace = bits.length := by rw [State.bitPlace, rx]

theorem mayBeBit_iff (l : Link) : l.mayBeBit b = true ↔ 20 * l.pulse.getD 0 < if b then 2000 else 5000 := by
  have held : l.heldNanos 0 = 20 * l.pulse.getD 0 := by rw [Link.heldNanos_eq, Nat.zero_max]
  rw [Link.mayBeBit, held]
  exact decide_eq_true_iff
end

/-- Settles O40, case by case of what is heard. -/
theorem contentionIsLostOrDropped : Obligations.ContentionIsLostOrDropped := by
  unfold Obligations.ContentionIsLostOrDropped
  intro own rest bits cut s sending queue rx held dropped marks
  have ownBits : s.link.ownBits = own.bits := ownBits_cons queue
  have tail : s.link.txQueue.tail = rest := by rw [queue]; rfl
  have errs (u : State) (r : RxState) (hu : u.link.txQueue.tail = rest)
      (ht : u = { s with link := { s.link with rx := r, quiet := 0, pulse := none } }) :
      u.transmitError = { s with control := marks, link := { dropped with rx := r } } := by
    rw [transmitError_eq, hu, ht]
    rfl
  have driven : s.drivenBit = own.bits[bits.length]? := by rw [drivenBit_frame sending rx, ownBits]
  refine ⟨fun early one short => ?_, fun b d drives differs no_loss short => ?_, fun ns long short held_short => ?_,
    fun silent zero => ?_, fun u sending queue rx silent zero => ?_, fun no_zero => ?_⟩
  · refine congrArg Host.Outcome.next ((if_pos ⟨by rw [driven, one], ?_, (mayBeBit_iff _).2 short⟩).trans ?_)
    · rw [hearPulse_bit rx, hearBit_lost (by exact sending) (by exact (congrArg (·[bits.length]?) ownBits).trans one) rfl
        early]
      rfl
    · rw [bitPlace_frame rx]
      exact early
  · have error : s.isErrorBit b = true := by
      rw [State.isErrorBit, driven, drives, bitPlace_frame rx]
      have apart : (d != b) = true := by simpa using Ne.symm differs
      have kept : (d && decide (bits.length < arbitrationBits)) = false := by
        rcases no_loss with rfl | late
        · rfl
        · rw [Bool.and_eq_false_iff]
          exact .inr (decide_eq_false (Nat.not_lt.2 late))
      simp only [apart, kept, Bool.not_false, Bool.and_self]
    have worked : s.onTransmitError (.bit b) = s.hearPulse (.bit b) := by
      rw [State.onTransmitError, if_pos sending]
      exact if_pos ⟨error, (mayBeBit_iff _).2 short⟩
    have read : (s.modLink Link.release).link.ownBits[bits.length]? = some d :=
      (congrArg (·[bits.length]?) ownBits).trans drives
    refine congrArg Host.Outcome.next (worked.trans ?_)
    rw [hearPulse_bit rx, hearBit_error (by exact sending) (by rw [read]; simpa using Ne.symm differs)]
    · exact errs _ _ tail rfl
    · rw [read]
      exact no_loss.imp_left (by rintro rfl; decide)
  · have long' : s.link.heldNanos ns = max ns held := s.link.heldNanos_eq ns
    have worked : s.onTransmitError (.pulse ns) = s.hearPulse .formError := by
      rw [State.onTransmitError, if_pos sending]
      refine if_pos ⟨by rw [State.collecting, rx], ?_, ?_⟩ <;> rw [long'] <;> omega
    refine congrArg Host.Outcome.next (worked.trans ?_)
    show (s.modLink Link.release).hearFormError = _
    have rx' : (s.modLink Link.release).link.rx = .frame bits cut := rx
    have tx' : (s.modLink Link.release).link.tx = .sending := sending
    rw [State.hearFormError, rx', if_pos tx']
    cases cut with
    | none =>
      simp only [tx', if_true]
      exact errs _ _ tail rfl
    | some n => exact errs _ _ tail rfl
  · have unheard : s.zeroUnheard = true := by
      rw [State.zeroUnheard, rx]
      have mem : false ∈ own.bits.drop bits.length :=
        List.mem_iff_getElem?.2 ⟨0, by rw [List.getElem?_drop, Nat.add_zero]; exact zero⟩
      show (s.link.ownBits.drop bits.length).contains false = true
      rw [ownBits]
      simpa using mem
    have worked : s.onTransmitError .nothing = (s.modLink Link.markStopped).transmitError := by
      rw [State.onTransmitError, if_pos sending]
      exact if_pos ⟨silent, unheard⟩
    have stopped : s.modLink Link.markStopped =
        { s with link := { s.link with rx := .frame bits (some bits.length) } } := by
      rw [State.modLink, Link.markStopped, rx]
      rfl
    refine congrArg Host.Outcome.next (worked.trans ?_)
    rw [stopped, transmitError_eq]
    simp only [tail]
    exact congrArg (fun p => { s with control := marks, link := { dropped with
      quiet := s.link.quiet, rx := .frame bits (some bits.length), pulse := p } }) silent
  · have unheard : u.zeroUnheard = true := by
      rw [State.zeroUnheard, rx]
      show u.link.ownBits.contains false = true
      rw [ownBits_cons queue]
      simpa using zero
    have worked : u.onTransmitError .nothing = (u.modLink Link.markStopped).transmitError := by
      rw [State.onTransmitError, if_pos sending]
      exact if_pos ⟨silent, unheard⟩
    have stopped : u.modLink Link.markStopped = u := by
      rw [State.modLink, Link.markStopped, rx]
    refine congrArg Host.Outcome.next (worked.trans ?_)
    rw [stopped, transmitError_eq, queue]
    rfl
  · have heard : s.zeroUnheard = false := by
      rw [State.zeroUnheard, rx]
      show (s.link.ownBits.drop bits.length).contains false = false
      rw [ownBits]
      simp only [List.contains_eq_mem, decide_eq_false_iff_not]
      intro mem
      obtain ⟨k, hk⟩ := List.mem_iff_getElem?.1 mem
      rw [List.getElem?_drop] at hk
      exact no_zero _ (Nat.le_add_right ..) hk
    refine congrArg Host.Outcome.next ?_
    rw [State.onTransmitError, if_pos sending]
    exact if_neg fun h => Bool.noConfusion (heard.symm.trans h.2)

/-! ## Pulses (R137, Table 8-2) -/

theorem onPulse_released {ns : Nat} (rx : s.link.rx ≠ .inactive) :
    s.onPulse (.released ns) = s.hearPulse (classifyPulse s.link.rx (max ns (20 * s.link.pulse.getD 0))) := by
  rw [State.onPulse, if_neg rx, ← Link.heldNanos_eq]

section
variable {rx : RxState} {ns : Nat}

theorem classifyPulse_noise (short : ns < 500) : classifyPulse rx ns = .noise := if_pos short

theorem classifyPulse_symbol (long : 500 ≤ ns) (short : ns < 100000) : classifyPulse rx ns =
    match rx with
    | .frame _ _ => if ns < 2000 then .bit true else if ns < 5000 then .bit false else .formError
    | .idle => if 8000 ≤ ns ∧ ns ≤ 12000 then .leadMark else .formError
    | .seeking => .restart
    | .inactive => .restart := by
  exact (if_neg (Nat.not_lt.2 long)).trans ((if_pos short).trans rfl)

theorem classifyPulse_halt (long : 100000 ≤ ns) (short : ns ≤ 2000000) : classifyPulse rx ns = .haltSymbol := by
  exact (if_neg (show ¬ ns < 500 by omega)).trans ((if_neg (show ¬ ns < 100000 by omega)).trans (if_pos short))

theorem classifyPulse_stuck (long : 2000000 < ns) : classifyPulse rx ns = .stuck := by
  exact (if_neg (show ¬ ns < 500 by omega)).trans
    ((if_neg (show ¬ ns < 100000 by omega)).trans (if_neg (show ¬ ns ≤ 2000000 by omega)))
end

/-- Settles O44. -/
theorem bitsAreCollectedAndCompared : Obligations.BitsAreCollectedAndCompared := by
  unfold Obligations.BitsAreCollectedAndCompared
  intro ns bits cut s rx long low high b driven collected rest
  have kind : classifyPulse s.link.rx long = .bit b := by
    rw [classifyPulse_symbol low (by omega), rx]
    by_cases one : long < 2000 <;> simp [b, one, high]
  have worked : exec (.bitReceived (.released ns)) s = .next ((s.modLink Link.release).hearBit bits cut b) := by
    refine congrArg Host.Outcome.next ((onPulse_released (by rw [rx]; nofun)).trans ?_)
    rw [kind, hearPulse_bit rx]
  rw [worked]
  refine ⟨fun same => ?_, fun sending one zero early => ?_, fun sending differs no_loss => ?_⟩
  · rw [hearBit_collected (by exact same)]
    rfl
  · rw [hearBit_lost (by exact sending) (by exact one) zero early]
    rfl
  · rw [hearBit_error (by exact sending) (by exact differs) (by exact no_loss), transmitError_eq]
    rfl

/-! ## A stuck line (R147) -/

theorem abortSending_eq (s : State) : s.abortSending = { s with link := { s.link with
    tx := if s.link.tx = .sending then .waiting else s.link.tx
    counts := if s.link.tx = .sending then
        { s.link.counts with aborted := min (s.link.counts.aborted + 1) 65535 }
      else s.link.counts } } := by
  unfold State.abortSending
  split
  · rfl
  · rfl

theorem hearStuckLine_again (silenced : s.link.tx = .silenced) :
    s.hearStuckLine = { s with link := { s.link with rx := .seeking, pulse := some 100001 } } := by
  have idle : s.link.tx ≠ .sending := by rw [silenced]; decide
  rw [State.hearStuckLine, abortSending_eq, if_pos silenced, if_neg (by exact idle), if_neg (by exact idle)]
  rfl

/-- A stuck line recorded for the first time, with room for its record and its notice. -/
theorem hearStuckLine_first (other : s.link.tx ≠ .silenced) (overflow : s.control.faults.overflow = false)
    (records : s.control.faults.records.length < 8) (room : s.hasRoomFor 1) :
    s.hearStuckLine = { s with
      link := { s.link with
        rx := .seeking, pulse := some 100001, tx := .silenced
        txQueue := s.link.txQueue ++ [faultNotice s.control.address (s.faultRecord .linkStuck 0)]
        counts := if s.link.tx = .sending then
            { s.link.counts with aborted := min (s.link.counts.aborted + 1) 65535 }
          else s.link.counts }
      control := { s.control with faults := { s.control.faults with
        records := s.control.faults.records ++ [s.faultRecord .linkStuck 0] } } } := by
  rw [State.hearStuckLine, if_neg other, abortSending_eq,
    reportFault_fits _ .linkStuck 0 (by exact overflow) (by exact records) (by exact room)]
  rfl

/-- Settles O42. -/
theorem stuckLineSilencesTheTransmitter : Obligations.StuckLineSilencesTheTransmitter := by
  unfold Obligations.StuckLineSilencesTheTransmitter
  intro c sought s rx given
  rcases given with ⟨rfl, rfl⟩ | ⟨ns, rfl, long, rfl⟩
  · have worked : exec .stuckLine s = .next s.hearStuckLine := congrArg Host.Outcome.next (if_neg rx)
    rw [worked]
    refine ⟨fun silenced => by rw [hearStuckLine_again silenced], fun other overflow records room => ?_⟩
    exact ⟨_, faultNotice_reports _ _, by rw [hearStuckLine_first other overflow records room]; rfl⟩
  · have worked : exec (.waitForIdleRestart (.released ns)) s = .next (s.hearStuckLine.modLink Link.release) := by
      refine congrArg Host.Outcome.next ((onPulse_released rx).trans ?_)
      rw [classifyPulse_stuck long]
      rfl
    rw [worked]
    refine ⟨fun silenced => by rw [hearStuckLine_again silenced]; rfl, fun other overflow records room => ?_⟩
    exact ⟨_, faultNotice_reports _ _, by rw [hearStuckLine_first other overflow records room]; rfl⟩

end Sys2Proof.Machine
end

section
/-! SUPPORT. Pulses by length and receiver state; then the theorem that settles O43. -/

namespace Sys2Proof.Machine

variable {s : State}

/-! ## Pulses by length and receiver state (R137, R138, Table 8-2) -/

/-- The outcome counters after a pulse of the wrong length: RX_FORM counts it, unless the frame given up is the own one
or one the own transmitter stopped. -/
def Link.formCounts (l : Link) : Outcomes :=
  match l.rx with
  | .frame _ (some _) => l.counts
  | .frame _ none =>
    if l.tx = .sending then l.counts else { l.counts with rxForm := min (l.counts.rxForm + 1) 65535 }
  | _ => { l.counts with rxForm := min (l.counts.rxForm + 1) 65535 }

theorem hearFormError_eq (hears : s.link.rx = .idle ∨ ∃ bits cut, s.link.rx = .frame bits cut) :
    s.hearFormError =
      let sought : State := { s with link := { s.link with rx := .seeking, counts := s.link.formCounts } }
      if s.link.tx = .sending then sought.transmitError else sought := by
  unfold State.hearFormError Link.formCounts
  rcases hears with rx | ⟨bits, cut, rx⟩
  · simp only [rx]
    rfl
  · cases cut with
    | some n => simp only [rx]; rfl
    | none =>
      simp only [rx]
      by_cases sending : s.link.tx = .sending <;> simp only [sending, if_true, if_false] <;> rfl

theorem onPulse_begins (rx : s.link.rx ≠ .inactive) :
    s.onPulse .begins = { s with link := { s.link with pulse := some (s.link.pulse.getD 0) } } := if_neg rx

theorem onPulse_inactive (rx : s.link.rx = .inactive) (p : Pulse) : s.onPulse p = s := if_pos rx

theorem exec_onPulse {c : Pulse → Instr} (row : c ∈ [Instr.haltSymbol, Instr.noisePulse, Instr.formError,
    Instr.leadMark, Instr.bitReceived, Instr.waitForIdleRestart]) (p : Pulse) (s : State) :
    exec (c p) s = .next (s.onPulse p) := by
  simp only [List.mem_cons, List.not_mem_nil, or_false] at row
  rcases row with rfl | rfl | rfl | rfl | rfl | rfl <;> rfl

theorem tick_link (s : State) : s.tick.link = s.link.tick := rfl

theorem linkTick_pulse {l : Link} {held : Nat} (rx : l.rx ≠ .inactive) (pulse : l.pulse = some held) :
    l.tick = { l with
      pulse := some (min (held + 1) 100001)
      rx := match l.rx with
        | .frame bits cut => if held + 1 < 250 then .frame bits cut else .frame [] (if l.tx = .sending then some 0 else cut)
        | other => other } := by
  rw [linkTick_eq, if_neg rx, pulse] <;> rfl

theorem formPulse_classified {long : Nat} {rx : RxState}
    (form : (rx = .idle ∧ (500 ≤ long ∧ long < 8000 ∨ 12000 < long ∧ long < 100000)) ∨
      ((∃ bits cut, rx = .frame bits cut) ∧ 5000 ≤ long ∧ long < 100000)) :
    classifyPulse rx long = .formError := by
  rw [classifyPulse_symbol (by omega) (by omega)]
  rcases form with ⟨rfl, length⟩ | ⟨⟨bits, cut, rfl⟩, low, -⟩
  · exact if_neg (by omega)
  · exact (if_neg (by omega)).trans (if_neg (by omega))

/-- Settles O43. -/
theorem pulsesActByLengthAndState : Obligations.PulsesActByLengthAndState := by
  unfold Obligations.PulsesActByLengthAndState
  refine ⟨fun s c row => ⟨fun rx p => ?_, fun rx => ?_⟩, fun s held rx pulse => ?_, fun ns s => ?_⟩
  · rw [exec_onPulse row, onPulse_inactive rx]
  · rw [exec_onPulse row, onPulse_begins rx]
  · rw [tick_link, linkTick_pulse rx pulse]
    refine ⟨rfl, rfl, rfl, fun short => ?_, fun bits cut long rx => ?_, fun sending rx => ?_,
      fun bits sending rx short => ?_⟩
    · cases hrx : s.link.rx with
      | frame bits cut => exact if_pos short
      | _ => rfl
    · simp only [rx, Link.driving, if_neg (Nat.not_lt.2 long)]
      refine ⟨trivial, ?_⟩
      by_cases sending : s.link.tx = .sending
      · simp [sending]
      · simp [sending]
    · have stop : Config.leadTicks = 600 := rfl
      simp only [rx, Link.driving, sending, stop]
      simp
    · simp only [rx, Link.driving, sending, if_pos short, Link.ownBits]
      simp only [BEq.rfl, Option.isNone_none, Bool.true_and]
      exact decide_eq_true_iff
  · intro long released rest form counts
    have read (hears : s.link.rx ≠ .inactive) : s.onPulse (.released ns) = s.hearPulse (classifyPulse s.link.rx long) :=
      onPulse_released hears
    refine ⟨fun hears short => ?_, fun idle low high => ?_, fun seeking low high => ?_, fun wrong other => ?_,
      fun wrong sending => ?_⟩
    · refine congrArg Host.Outcome.next ((read hears).trans ?_)
      rw [classifyPulse_noise short, State.hearPulse, State.modLink, Link.releaseNoise_eq]
      rfl
    · refine congrArg Host.Outcome.next ((read (by rw [idle]; nofun)).trans ?_)
      have lead : classifyPulse s.link.rx long = .leadMark := by
        rw [classifyPulse_symbol (by omega) (by omega), idle]
        exact if_pos ⟨low, high⟩
      rw [lead]
      rfl
    · refine congrArg Host.Outcome.next ((read (by rw [seeking]; nofun)).trans ?_)
      rw [classifyPulse_symbol low high, seeking]
      rfl
    all_goals
      have hears : s.link.rx = .idle ∨ ∃ bits cut, s.link.rx = .frame bits cut := wrong.imp And.left And.left
      have worked : s.onPulse (.released ns) = (s.modLink Link.release).hearFormError := by
        rw [read (by rcases hears with rx | ⟨bits, cut, rx⟩ <;> rw [rx] <;> nofun), formPulse_classified wrong]
        rfl
      refine congrArg Host.Outcome.next (worked.trans ((hearFormError_eq (s := s.modLink Link.release) hears).trans ?_))
    · exact if_neg (by exact other)
    · refine (if_pos (by exact sending)).trans ?_
      rw [transmitError_eq]
      rfl

end Sys2Proof.Machine
end

section
/-! SUPPORT. The indication judge's numbering, the pairing unit's own indications, and a travel advance at the coverage
account; then the theorems that settle O48, O49 and O51. -/

namespace Sys2Proof.Machine

variable {s : State}

/-! ## Numbering (R92, R94, R95) -/

theorem Eight.mem_toList {α : Type} (v : Eight α) (a : α) : a ∈ v.toList ↔ ∃ i, v.get i = a := by
  have places : v.toList = elements.map v.get := rfl
  rw [places, List.mem_map]
  simp only [mem_elements, true_and]

theorem excludes_iff (j : Judge) (x : Int) : j.excludes x = true ↔
    ∃ i, (j.zones.get i).enabled = true ∧ (j.zones.get i).base ≤ x ∧ x ≤ (j.zones.get i).limit := by
  simp [Judge.excludes, Eight.mem_toList]

theorem not_excludes_of_apart {j : Judge} {x : Int}
    (apart : ∀ i, (j.zones.get i).enabled = true → x < (j.zones.get i).base ∨ (j.zones.get i).limit < x) :
    j.excludes x ≠ true := by
  rw [Ne, excludes_iff]
  rintro ⟨i, on, above, below⟩
  have := apart i on
  omega

section
variable (e : Element) (x : Int) (body : Body)

theorem numberIndication_suppressed (inside : s.judge.excludes x = true) :
    s.numberIndication e x body =
      { s with judge := { s.judge with suppressed := min (s.judge.suppressed + 1) 65535 } } := if_pos inside

theorem numberIndication_taken (outside : s.judge.excludes x ≠ true) :
    s.numberIndication e x body = State.pairOwn
      { sequence := s.judge.nextSeq, element := e, rail := s.control.rail, key := (s.elem e).key,
        sense := if 0 < (s.elem e).sine then .forward else if (s.elem e).sine < 0 then .backward else .normal,
        x := x, body := body }
      { s with judge := { s.judge with
        nextSeq := if s.judge.nextSeq < 65535 then s.judge.nextSeq + 1 else 1 } } := if_neg outside
end

theorem judgeChain_rejected {c : Chain}
    (short : c.count < (s.elem c.element).minLength ∨ c.peak < (s.elem c.element).reportLevel) :
    s.judgeChain c = { s with judge := { s.judge with rejected := min (s.judge.rejected + 1) 65535 } } := by
  have unreported : ¬ chainReported (s.elem c.element) c = true := by
    simp only [chainReported, Bool.and_eq_true, decide_eq_true_eq]
    omega
  exact if_neg unreported

theorem judgeChain_reported {c : Chain} (long : (s.elem c.element).minLength ≤ c.count)
    (high : (s.elem c.element).reportLevel ≤ c.peak) :
    s.judgeChain c = s.numberIndication c.element
      (carPosition s.station.mountOffset c.peakPos (alongMicros (s.elem c.element) c.peakPath))
      (.echo (depthTenths (s.elem c.element) c.peakPath)
        (depthZone s.station (depthTenths (s.elem c.element) c.peakPath)) c.peak c.saturated c.count) := by
  have reported : chainReported (s.elem c.element) c = true := by
    simp only [chainReported, Bool.and_eq_true, decide_eq_true_eq]
    exact ⟨long, high⟩
  exact if_pos reported

/-- Settles O48. -/
theorem closedChainsAreJudged : Obligations.ClosedChainsAreJudged := by
  unfold Obligations.ClosedChainsAreJudged
  intro s nearest inRange indicates
  have numbered (e : Element) (x : Int) (body : Body) : indicates e x body (s.numberIndication e x body) :=
    ⟨fun inside => numberIndication_suppressed e x body ((excludes_iff _ _).2 inside),
     fun apart => numberIndication_taken e x body (not_excludes_of_apart apart)⟩
  refine ⟨fun c => ⟨judgeChain_rejected, fun long high => ?_⟩, fun e startX endX => ⟨fun short => ?_, fun long => ?_⟩⟩
  · rw [judgeChain_reported long high]
    exact numbered _ _ _
  · exact if_neg (Nat.not_le.2 short)
  · have judged : s.judgeLoss e startX endX = s.numberIndication e startX (.bwl (lossExtent startX endX)) :=
      if_pos long
    rw [judged]
    exact numbered _ _ _

/-! ## Own indications (R122, R124, R126 to R129) -/

section
variable {i : Indication}

theorem capable_iff (e : Element) (p : Peer) : s.capable e p = true ↔
    p.live = true ∧ p.rail = s.control.rail ∧ p.state ≠ .unconfigured ∧
      ∃ j : Element, (p.element.get j).enabled = true ∧ (p.element.get j).gapOpen = false ∧
        (p.element.get j).key = (s.elem e).key ∧ (p.element.get j).key ≠ 0 ∧
        (p.element.get j).sense.completes (senseOfSine (s.elem e).sine) := by
  simp [State.capable, mem_elements, sensesComplement_iff, and_assoc]

theorem hasPartner_iff (e : Element) : s.hasPartner e = true ↔ ∃ p ∈ s.pair.peers, s.capable e p = true := by
  rw [State.hasPartner, List.any_eq_true]

theorem pairOwn_keyless (key : i.key = 0) : s.pairOwn i = s.append (s.indicationNotice i .sole) := if_pos key

theorem pairOwn_matched {k : Nat} {n : PeerNotice} (key : i.key ≠ 0) (best : s.bestNotice i = some (k, n)) :
    s.pairOwn i =
      ({ s with pair := { s.pair with notices := s.pair.notices.eraseIdx k } } : State).append
        (s.indicationNotice i (.confirmed n.sender n.sequence)) := by
  rw [State.pairOwn, if_neg key, best]
  rfl

theorem pairOwn_unmatched (key : i.key ≠ 0) (best : s.bestNotice i = none) :
    s.pairOwn i =
      ({ s with pair := { s.pair with
          own := enterOwn ⟨i, !s.hasPartner i.element, s.odo.travel⟩ s.pair.own } } : State).append
        (s.indicationNotice i (listedState !s.hasPartner i.element)) := by
  rw [State.pairOwn, if_neg key, best]
  rfl

/-- The notice of an indication whose outcome is `p`, queued or dropped, with the pairing unit left at `lists`. -/
def State.takesOutcome (s : State) (i : Indication) (lists : Pairing) (p : PairState) : Prop :=
  (s.hasRoomFor 1 → ∃ f, f.indicates s.control.address i p ∧
    s.pairOwn i = { s with pair := lists, link := s.link.queueing [f] }) ∧
  (24 ≤ s.link.txQueue.length →
    s.pairOwn i = { s.dropping { s.link.drops with indication := min (s.link.drops.indication + 1) 65535 } with
      pair := lists })

theorem takesOutcome_of_append {lists : Pairing} {p : PairState}
    (worked : s.pairOwn i = ({ s with pair := lists } : State).append (s.indicationNotice i p)) :
    s.takesOutcome i lists p := by
  refine ⟨fun room => ⟨_, indicationNotice_indicates s i p, ?_⟩, fun full => ?_⟩
  · rw [worked, append_fits _ (by exact room)]
  · rw [worked, append_dropped _ (by exact full)]
    rfl
end

/-- Settles O49. -/
theorem ownIndicationsTakeTheirOutcome : Obligations.OwnIndicationsTakeTheirOutcome := by
  unfold Obligations.OwnIndicationsTakeTheirOutcome
  refine ⟨fun i s => ?_, fun n s keyless => ?_⟩
  · intro takes fits apart
    refine ⟨fun keyless => takesOutcome_of_append (pairOwn_keyless keyless), fun m mem fit => ?_, fun key unfit => ?_⟩
    · have key : i.key ≠ 0 := fit.2.2.1
      cases best : s.bestNotice i with
      | none =>
        have none_fits := bestMatch_eq_none_iff.1 best m mem
        rw [(matching_iff _ _ _).2 fit] at none_fits
        exact absurd none_fits Bool.noConfusion
      | some found =>
        obtain ⟨k, n⟩ := found
        obtain ⟨before, after, split, erased, ok, nearer, nearest⟩ := bestMatch_split best
        refine ⟨before, n, after, split, (matching_iff _ _ _).1 ok, fun b hb fit => nearer b hb ((matching_iff _ _ _).2 fit),
          fun b hb fit => nearest b hb ((matching_iff _ _ _).2 fit), takesOutcome_of_append ?_⟩
        rw [pairOwn_matched key best, erased]
    · intro sine partner kept
      have best : s.bestNotice i = none := bestMatch_eq_none_iff.2 fun n mem => by
        rw [← Bool.not_eq_true, matching_iff]
        exact unfit n mem
      have partner_iff : s.hasPartner i.element = true ↔ partner := by
        rw [hasPartner_iff]
        exact exists_congr fun p => and_congr_right fun _ => capable_iff _ _
      refine ⟨!s.hasPartner i.element, ?_, takesOutcome_of_append (pairOwn_unmatched key best)⟩
      rw [← partner_iff, Bool.not_eq_true', Bool.not_eq_true]
  · rw [← Bool.not_eq_true, wantsNotice_iff]
    exact fun awaited => awaited.2.1 keyless

/-! ## A travel advance at the coverage account (R106, R107) -/

section
variable {travel : Nat}

theorem coverAdvance_idle (idle : s.cover.accounting = .idle) : s.coverAdvance travel = s :=
  if_neg (by rw [idle]; decide)

theorem countGapTravel_eq (d : Nat) (c : Coverage) : c.countGapTravel d = { c with
    element := Eight.ofFn fun e => { c.element.get e with
      gapTravel := (c.element.get e).gapTravel + if (c.element.get e).causes.nonempty then d else 0 } } := by
  refine congrArg (fun v => { c with element := v }) (Eight.ext_get fun e => ?_)
  simp only [Eight.get_map, Eight.get_ofFn]
  split <;> rfl

theorem restartGapTravel_eq (d : Nat) (c : Coverage) : c.restartGapTravel d = { c with
    element := Eight.ofFn fun e => { c.element.get e with
      gapTravel := if (c.element.get e).causes.nonempty then d else 0 } } := rfl

theorem coverAdvance_inside (active : s.cover.accounting = .active)
    (inside : travel < s.cover.spanStart + 1000000 * s.station.spanLength) :
    s.coverAdvance travel = { s with cover := { s.cover.countGapTravel (travel - s.cover.lastTravel) with
      lastTravel := travel } } :=
  (if_pos active).trans (if_neg (Nat.not_le.2 inside))

/-- The account at a span end, with the travel up to that end counted. -/
def State.spanCounted (travel : Nat) (s : State) : State := { s with
  cover := { s.cover.countGapTravel (s.cover.spanStart + s.spanMicros - s.cover.lastTravel) with lastTravel := travel } }

theorem coverAdvance_past (active : s.cover.accounting = .active) (past : s.cover.spanStart + s.spanMicros ≤ travel) :
    s.coverAdvance travel =
      ((s.spanCounted travel).append ((s.spanCounted travel).spanNotice s.spanMicros)).modCover fun c =>
        { c.restartGapTravel (travel - (s.cover.spanStart + s.spanMicros)) with
          spanIndex := c.reportedIndex, spanStart := s.cover.spanStart + s.spanMicros } :=
  (if_pos active).trans (if_pos past)
end

/-- Settles O51. -/
theorem spansEndAtTheirLength : Obligations.SpansEndAtTheirLength := by
  unfold Obligations.SpansEndAtTheirLength
  refine ⟨fun travel s => ⟨coverAdvance_idle, fun active inside => ?_⟩, fun travel s active => ?_⟩
  · rw [coverAdvance_inside active inside, countGapTravel_eq]
  · intro length spanEnd before past next
    have counted : (s.spanCounted travel).cover = { s.cover with
        lastTravel := travel
        element := Eight.ofFn fun e => { s.cover.element.get e with
          gapTravel := (s.cover.element.get e).gapTravel +
            if (s.cover.element.get e).causes.nonempty then spanEnd - s.cover.lastTravel else 0 } } := by
      rw [State.spanCounted, countGapTravel_eq]
      rfl
    have restarted : { (s.spanCounted travel).cover.restartGapTravel (travel - spanEnd) with
        spanIndex := (s.spanCounted travel).cover.reportedIndex, spanStart := spanEnd } = next := by
      rw [restartGapTravel_eq, counted]
      simp only [Eight.get_ofFn]
      rfl
    have worked := coverAdvance_past active past
    refine ⟨fun room => ⟨(s.spanCounted travel).spanNotice length, ?_, ?_⟩, fun full => ?_⟩
    · have shows := spanNotice_showsSpan (s := s.spanCounted travel) length
      have gap (e : Element) : ((s.spanCounted travel).cover.element.get e).gapTravel =
          (s.cover.element.get e).gapTravel +
            if (s.cover.element.get e).causes.nonempty then spanEnd - s.cover.lastTravel else 0 := by
        rw [counted, Eight.get_ofFn]
      simp only [gap] at shows
      exact shows
    · rw [worked, append_fits _ (by exact room), ← restarted]
      rfl
    · rw [worked, append_dropped _ (by exact full), ← restarted]
      rfl

end Sys2Proof.Machine
end

section
/-! SUPPORT. GAP notices: the changes of one event grouped into notices, the cause requests of one event, and what
queueing notices leaves of the rest of the part. -/

namespace Sys2Proof.Machine

variable {s t u : State}

/-! ## What a footprint leaves of the setup and of the outside -/

theorem Within.sameSetup {p : Footprint} (within : Within p s t) (setup : p.setup = false) : s.sameSetup t :=
  ⟨within.setup_address setup, within.setup_rail setup, within.setup_cause setup, within.setup_config setup,
    within.setup_configuredMask setup, within.setup_faultOffset setup, within.setup_imageId setup⟩

theorem Within.sameOutside {p : Footprint} (within : Within p s t)
    (stands : p.pins = false ∧ p.loader = false ∧ p.hold = false ∧ p.rx = false ∧ p.counts = false) : s.sameOutside t := by
  obtain ⟨pins, loader, hold, rx, counts⟩ := stands
  exact ⟨within.pins pins, within.loader loader, within.hold hold, within.pending, within.rx_rx rx,
    within.rx_rxQueue rx, within.counts counts⟩

/-- Every position formed from the odometer and the configuration stays where those two do. -/
theorem Within.currentX {p : Footprint} (within : Within p s t) (odo : p.odo = false) (setup : p.setup = false) :
    t.currentX = s.currentX := by
  rw [State.currentX, State.station, State.config, within.setup_config setup, within.odo odo]
  rfl

/-! ## Notices queued or dropped -/

/-- `t` is `s` but for notices queued or dropped: the transmit queue grows at its tail, a transmitter that is not IDLE
stays as it is, and beside the link controller's transmitter only the fault file and the TXQ_FULL mark may differ. -/
structure Told (s t : State) : Prop where
  within : Within Footprint.notices s t
  chainFull : t.control.episodes.chainFull = s.control.episodes.chainFull
  grows : ∃ more, t.link.txQueue = s.link.txQueue ++ more
  busy : s.link.tx ≠ .idle → t.link.tx = s.link.tx

theorem Told.refl (s : State) : Told s s := ⟨Within.refl _ s, rfl, ⟨[], (List.append_nil _).symm⟩, fun _ => rfl⟩

theorem Told.trans (h : Told s t) (k : Told t u) : Told s u where
  within := h.within.trans k.within
  chainFull := k.chainFull.trans h.chainFull
  grows := by
    obtain ⟨more, hmore⟩ := h.grows
    obtain ⟨further, hfurther⟩ := k.grows
    exact ⟨more ++ further, by rw [hfurther, hmore, List.append_assoc]⟩
  busy := fun not_idle => (k.busy (by rw [h.busy not_idle]; exact not_idle)).trans (h.busy not_idle)

theorem queueing_busy (l : Link) (fs : List Frame) (not_idle : l.tx ≠ .idle) : (l.queueing fs).tx = l.tx := by
  show (if fs = [] then l.tx else l.txOnQueueing) = l.tx
  rw [Link.txOnQueueing, if_pos (Or.inl not_idle), ite_self]

theorem append_told (f : Frame) : Told s (s.append f) := by
  by_cases room : s.hasRoomFor 1
  · have fits := append_fits f room
    exact ⟨append_within s f, by rw [fits], ⟨[f], by rw [fits]; rfl⟩, fun not_idle => by
      rw [fits]
      exact queueing_busy _ _ not_idle⟩
  · have full : 24 ≤ s.link.txQueue.length := by
      have cap : Config.txCapacity = 24 := rfl
      simp only [State.hasRoomFor] at room
      omega
    have dropped := append_dropped f full
    exact ⟨append_within s f, by rw [dropped]; rfl, ⟨[], by rw [dropped]; exact (List.append_nil _).symm⟩, fun _ => by
      rw [dropped]
      rfl⟩

theorem appendAll_cons (f : Frame) (fs : List Frame) : s.appendAll (f :: fs) = (s.append f).appendAll fs := rfl

theorem appendAll_append (fs gs : List Frame) : s.appendAll (fs ++ gs) = (s.appendAll fs).appendAll gs :=
  List.foldl_append

theorem appendAll_singleton (f : Frame) : s.appendAll [f] = s.append f := rfl

theorem appendAll_told (fs : List Frame) : Told s (s.appendAll fs) := by
  induction fs generalizing s with
  | nil => exact Told.refl s
  | cons f fs ih => exact (append_told f).trans ih

theorem appendAll_fits (fs : List Frame) (room : s.hasRoomFor fs.length) :
    s.appendAll fs = { s with link := s.link.queueing fs } := by
  induction fs generalizing s with
  | nil => rw [Link.queueing_nil]; rfl
  | cons f fs ih =>
    have one : s.hasRoomFor 1 := by
      simp only [State.hasRoomFor, List.length_cons] at room ⊢
      omega
    have others : State.hasRoomFor { s with link := s.link.queueing [f] } fs.length := by
      simp only [State.hasRoomFor, List.length_cons, Link.queueing_txQueue, List.length_append, List.length_nil] at room ⊢
      omega
    rw [appendAll_cons, append_fits f one, ih others, Link.queueing_queueing]
    rfl

/-! ## Changes grouped by kind and start X (R105) -/

def GapChange.key (g : GapChange) : Bool × Int := (g.close, g.startX)
def GapGroup.key (g : GapGroup) : Bool × Int := (g.close, g.startX)

section
variable {g : GapChange} {gs : List GapGroup}

theorem joinGroup_cons_same {h : GapGroup} (code : h.code = g.code) (same : h.key = g.key) :
    joinGroup g (h :: gs) = { h with set := h.set.set g.element true } :: gs :=
  if_pos ⟨congrArg Prod.fst same, code, congrArg Prod.snd same⟩

theorem joinGroup_cons_other {h : GapGroup} (other : h.key ≠ g.key) : joinGroup g (h :: gs) = h :: joinGroup g gs :=
  if_neg fun ⟨close, _, start⟩ => other (Prod.ext close start)

theorem joinGroup_keys (codes : ∀ h ∈ gs, h.code = g.code) :
    (joinGroup g gs).map GapGroup.key =
      gs.map GapGroup.key ++ if g.key ∈ gs.map GapGroup.key then [] else [g.key] := by
  induction gs with
  | nil => rfl
  | cons h gs ih =>
    by_cases same : h.key = g.key
    · rw [joinGroup_cons_same (codes h (List.mem_cons_self ..)) same, if_pos (by simp [same]), List.append_nil]
      rfl
    · rw [joinGroup_cons_other same, List.map_cons, ih fun h mem => codes h (List.mem_cons_of_mem _ mem)]
      simp [Ne.symm same]

/-- A group after a change has joined: another change's, the one it joined, or the one it began. -/
theorem mem_joinGroup (codes : ∀ h ∈ gs, h.code = g.code) (apart : (gs.map GapGroup.key).Nodup) {h : GapGroup}
    (mem : h ∈ joinGroup g gs) :
    (h ∈ gs ∧ h.key ≠ g.key) ∨ (∃ h' ∈ gs, h'.key = g.key ∧ h = { h' with set := h'.set.set g.element true }) ∨
      (g.key ∉ gs.map GapGroup.key ∧ h = ⟨g.close, g.code, noElements.set g.element true, g.startX, g.endX⟩) := by
  induction gs with
  | nil => exact .inr (.inr ⟨List.not_mem_nil, List.mem_singleton.1 mem⟩)
  | cons first gs ih =>
    have apart' : first.key ∉ gs.map GapGroup.key ∧ (gs.map GapGroup.key).Nodup := List.nodup_cons.1 apart
    by_cases same : first.key = g.key
    · rw [joinGroup_cons_same (codes first (List.mem_cons_self ..)) same] at mem
      rcases List.mem_cons.1 mem with rfl | mem
      · exact .inr (.inl ⟨first, List.mem_cons_self .., same, rfl⟩)
      · exact .inl ⟨List.mem_cons_of_mem _ mem, fun eq =>
          apart'.1 (by rw [same, ← eq]; exact List.mem_map_of_mem mem)⟩
    · rw [joinGroup_cons_other same] at mem
      rcases List.mem_cons.1 mem with rfl | mem
      · exact .inl ⟨List.mem_cons_self .., same⟩
      · rcases ih (fun h mem => codes h (List.mem_cons_of_mem _ mem)) apart'.2 mem with
          ⟨old, other⟩ | ⟨h', old, joined⟩ | ⟨absent, new⟩
        · exact .inl ⟨List.mem_cons_of_mem _ old, other⟩
        · exact .inr (.inl ⟨h', List.mem_cons_of_mem _ old, joined⟩)
        · exact .inr (.inr ⟨by simpa using ⟨Ne.symm same, by simpa using absent⟩, new⟩)

theorem length_joinGroup_le (g : GapChange) (gs : List GapGroup) : (joinGroup g gs).length ≤ gs.length + 1 := by
  induction gs with
  | nil => exact Nat.le_refl 1
  | cons h gs ih =>
    rw [joinGroup]
    split
    · exact Nat.le_succ _
    · exact Nat.succ_le_succ ih
end

/-- The change of an element's gap as the monitor notes it. -/
def noteChange (code : BitVec 3) (x : Int) (change : GapChanges) (e : Element) : Option GapChange :=
  (change e).map fun k => ⟨k.1, code, e, k.2, x⟩

/-- The groups are those of the changes of the elements `l`: one for each kind and start X, with the elements whose
change it is. -/
structure Grouped (code : BitVec 3) (x : Int) (change : GapChanges) (l : List Element) (gs : List GapGroup) : Prop where
  keys : gs.map GapGroup.key = (l.filterMap change).eraseDups
  apart : (gs.map GapGroup.key).Nodup
  codes : ∀ g ∈ gs, g.code = code
  ends : ∀ g ∈ gs, g.endX = x
  sets : ∀ g ∈ gs, ∀ e, g.set.get e = (l.contains e && decide (change e = some g.key))

section
variable {code : BitVec 3} {x : Int} {change : GapChanges} {l : List Element} {gs : List GapGroup} {e : Element}

theorem Grouped.step_none (h : Grouped code x change l gs) (none : change e = none) :
    Grouped code x change (l ++ [e]) gs where
  keys := by rw [h.keys]; simp [List.filterMap_append, none]
  apart := h.apart
  codes := h.codes
  ends := h.ends
  sets := fun g mem i => by
    rw [h.sets g mem i]
    by_cases same : i = e
    · simp [same, none]
    · simp [same]

theorem Grouped.step_some (h : Grouped code x change l gs) {k : Bool × Int} (some : change e = some k) :
    Grouped code x change (l ++ [e]) (joinGroup ⟨k.1, code, e, k.2, x⟩ gs) := by
  have joined := fun {g} => mem_joinGroup (g := ⟨k.1, code, e, k.2, x⟩) h.codes h.apart (h := g)
  have keys := joinGroup_keys (g := ⟨k.1, code, e, k.2, x⟩) h.codes
  have mem_keys : k ∈ gs.map GapGroup.key ↔ k ∈ l.filterMap change := by rw [h.keys, List.mem_eraseDups]
  refine ⟨?_, ?_, fun g mem => ?_, fun g mem => ?_, fun g mem i => ?_⟩
  · have key : (⟨k.1, code, e, k.2, x⟩ : GapChange).key = k := rfl
    have single : [e].filterMap change = [k] := by rw [List.filterMap_cons, some]; rfl
    rw [keys, h.keys, key, List.filterMap_append, List.eraseDups_append, single, List.cons_removeAll]
    by_cases old : k ∈ l.filterMap change
    · rw [if_pos (List.mem_eraseDups.2 old), if_neg (by simpa using old)]
      rfl
    · rw [if_neg (fun mem => old (List.mem_eraseDups.1 mem)), if_pos (by simpa using old)]
      rfl
  · rw [keys]
    split
    · rw [List.append_nil]
      exact h.apart
    · next absent => exact List.nodup_append.2 ⟨h.apart, List.nodup_singleton _, by
        intro a ha b hb same
        rw [List.mem_singleton.1 hb] at same
        exact absent (same ▸ ha)⟩
  · rcases joined mem with ⟨old, -⟩ | ⟨g', old, -, rfl⟩ | ⟨-, rfl⟩
    · exact h.codes g old
    · exact h.codes g' old
    · rfl
  · rcases joined mem with ⟨old, -⟩ | ⟨g', old, -, rfl⟩ | ⟨-, rfl⟩
    · exact h.ends g old
    · exact h.ends g' old
    · rfl
  · rcases joined mem with ⟨old, other⟩ | ⟨g', old, same, rfl⟩ | ⟨absent, rfl⟩
    · rw [h.sets g old i]
      by_cases here : i = e
      · have : change e ≠ Option.some g.key := by rw [some]; exact fun eq => other (Option.some.inj eq).symm
        simp [here, this]
      · simp [here]
    · have joins : change e = Option.some g'.key := by rw [some, same]; rfl
      show (g'.set.set e true).get i = (_ && decide (change i = Option.some g'.key))
      by_cases here : i = e
      · simp [here, joins]
      · simp [Eight.get_set_other _ here, h.sets g' old i, here]
    · have fresh : k ∉ l.filterMap change := fun old => absent (mem_keys.2 old)
      show (noElements.set e true).get i = (_ && decide (change i = Option.some k))
      by_cases here : i = e
      · simp [here, some]
      · have apart : ¬ (i ∈ l ∧ change i = Option.some k) := fun ⟨mem, eq⟩ => fresh (List.mem_filterMap.2 ⟨i, mem, eq⟩)
        rw [Eight.get_set_other _ here, get_noElements]
        simpa [here] using apart

theorem grouped_of_elements (code : BitVec 3) (x : Int) (change : GapChanges) (l : List Element) :
    Grouped code x change l (groupChanges (l.filterMap (noteChange code x change))) := by
  induction l using List.reverseRecOn with
  | nil => exact ⟨rfl, List.nodup_nil, nofun, nofun, nofun⟩
  | append_singleton l e ih =>
    cases changes : change e with
    | none =>
      have same : (l ++ [e]).filterMap (noteChange code x change) = l.filterMap (noteChange code x change) := by
        simp [List.filterMap_append, noteChange, changes]
      rw [same]
      exact ih.step_none changes
    | some k =>
      have joins : groupChanges ((l ++ [e]).filterMap (noteChange code x change)) =
          joinGroup ⟨k.1, code, e, k.2, x⟩ (groupChanges (l.filterMap (noteChange code x change))) := by
        simp [List.filterMap_append, noteChange, changes, groupChanges]
      rw [joins]
      exact ih.step_some changes
end

theorem length_groupChanges_le (changes : List GapChange) : (groupChanges changes).length ≤ changes.length := by
  induction changes using List.reverseRecOn with
  | nil => exact Nat.le_refl 0
  | append_singleton l g ih =>
    have joins : groupChanges (l ++ [g]) = joinGroup g (groupChanges l) := List.foldl_append
    rw [joins, List.length_append]
    exact (length_joinGroup_le g _).trans (Nat.succ_le_succ ih)

/-- The GAP notices of the changes of one event. -/
def State.noticesOf (s : State) (code : BitVec 3) (x : Int) (change : GapChanges) : List Frame :=
  (groupChanges (elements.filterMap (noteChange code x change))).map s.gapNotice

/-- The GAP notices of one event are those the statements name. -/
theorem noticesOf_gapNotices (s : State) (code : BitVec 3) (x : Int) (change : GapChanges) :
    gapNotices s.control.address code x change (s.noticesOf code x change) := by
  have grouped := grouped_of_elements code x change elements
  unfold gapNotices State.noticesOf
  refine ⟨by rw [List.length_map, ← grouped.keys, List.length_map], ?_⟩
  intro k f close startX frame key
  rw [← grouped.keys, List.getElem?_map] at key
  rw [List.getElem?_map] at frame
  obtain ⟨g, at_k, rfl⟩ := Option.map_eq_some_iff.1 frame
  rw [at_k] at key
  have mem : g ∈ _ := List.mem_of_getElem? at_k
  have same : g.key = (close, startX) := Option.some.inj key
  have hclose : g.close = close := congrArg Prod.fst same
  have hstart : g.startX = startX := congrArg Prod.snd same
  unfold State.gapNotice frameOf
  rw [decodeGap_gapPayload]
  refine ⟨rfl, rfl, rfl, hclose, grouped.codes g mem, congrArg positionField hstart, ?_, fun e => ?_⟩
  · show (if g.close then positionField g.endX else 0) = _
    rw [hclose, grouped.ends g mem]
    rfl
  · show (maskByte g.set).getLsbD e.val = _
    have inside : elements.contains e = true := List.contains_iff_mem.2 (mem_elements e)
    rw [maskByte_bit, grouped.sets g mem e, same, inside, Bool.true_and]

theorem length_noticesOf_le (code : BitVec 3) (x : Int) (change : GapChanges) :
    (s.noticesOf code x change).length ≤ 8 := by
  rw [State.noticesOf, List.length_map]
  exact (length_groupChanges_le _).trans (List.length_filterMap_le _ _)

theorem noticesOf_nothing {code : BitVec 3} {x : Int} {change : GapChanges} (nothing : ∀ e, change e = none) :
    s.noticesOf code x change = [] := by
  have none_noted : elements.filterMap (noteChange code x change) = [] :=
    List.filterMap_eq_nil_iff.2 fun e _ => by rw [noteChange, nothing e]; rfl
  rw [State.noticesOf, none_noted]
  rfl

/-- Changes all of one kind and start X make at most one notice. -/
theorem length_noticesOf_le_one {code : BitVec 3} {x : Int} {change : GapChanges} (k : Bool × Int)
    (alike : ∀ e k', change e = some k' → k' = k) : (s.noticesOf code x change).length ≤ 1 := by
  rw [(noticesOf_gapNotices s code x change).1]
  have all_k : ∀ k' ∈ elements.filterMap change, k' = k := fun k' mem => by
    obtain ⟨e, -, eq⟩ := List.mem_filterMap.1 mem
    exact alike e k' eq
  cases keys : elements.filterMap change with
  | nil => exact Nat.zero_le 1
  | cons a as =>
    rw [keys] at all_k
    have rest : as.filter (fun b => !b == a) = [] := List.filter_eq_nil_iff.2 fun b mem => by
      rw [all_k b (List.mem_cons_of_mem _ mem), all_k a (List.mem_cons_self ..)]
      simp
    rw [List.eraseDups_cons, rest]
    exact Nat.le_refl 1

theorem elements_filter_eq : ∀ e : Element, elements.filter (fun i => decide (i = e)) = [e] := by decide

/-- A change of one element makes one notice. -/
theorem noticesOf_single (code : BitVec 3) (x : Int) (e : Element) (k : Bool × Int) :
    s.noticesOf code x (fun i => if i = e then some k else none) =
      [s.gapNotice ⟨k.1, code, noElements.set e true, k.2, x⟩] := by
  have alone : elements.filterMap (noteChange code x fun i => if i = e then some k else none) = [⟨k.1, code, e, k.2, x⟩] := by
    have parts : elements.filterMap (noteChange code x fun i => if i = e then some k else none) =
        (elements.filter (fun i => decide (i = e))).map fun i => ⟨k.1, code, i, k.2, x⟩ := by
      rw [← List.filterMap_eq_filter, List.map_filterMap]
      refine List.filterMap_congr fun i _ => ?_
      by_cases here : i = e <;> simp [noteChange, here, Option.guard]
    rw [parts, elements_filter_eq]
    rfl
  rw [State.noticesOf, alone]
  rfl

/-! ## The cause requests of one event (R102 to R105) -/

/-- A cause set after a request on it, or without one. -/
def Causes.asked (cause : Cause) (ask : Option Bool) (c : Causes) : Causes :=
  match ask with
  | none => c
  | some add => c.put cause add

/-- The requests of one event, all of one cause and at one car position. -/
def causeRequests (cause : Cause) (x : Int) (ask : Element → Option Bool) : List CauseRequest :=
  elements.filterMap fun e => (ask e).map fun add => ⟨e, cause, add, x, x⟩

/-- An element's account after a request on its cause set, or without one. -/
def ElementCover.asked (cause : Cause) (x : Int) (ask : Option Bool) (c : ElementCover) : ElementCover :=
  { c with
    causes := c.causes.asked cause ask
    gapStart := gapStartAfter x c.gapStart c.causes (c.causes.asked cause ask) }

/-- The coverage account after the requests. -/
def Coverage.asked (cause : Cause) (x : Int) (ask : Element → Option Bool) (c : Coverage) : Coverage :=
  { c with element := Eight.ofFn fun e => (c.element.get e).asked cause x (ask e) }

/-- What the requests open and close. -/
def Coverage.askedChange (cause : Cause) (x : Int) (ask : Element → Option Bool) (c : Coverage) : GapChanges := fun e =>
  gapChange x (c.element.get e).gapStart (c.element.get e).causes ((c.element.get e).causes.asked cause (ask e))

section
variable {cause : Cause} {x : Int} {ask : Element → Option Bool}

theorem asked_none (c : ElementCover) : c.asked cause x none = c := by
  have stays : gapStartAfter x c.gapStart c.causes c.causes = c.gapStart := by
    unfold gapStartAfter
    cases c.causes.nonempty <;> rfl
  show { c with causes := c.causes, gapStart := gapStartAfter x c.gapStart c.causes c.causes } = c
  rw [stays]

theorem applyRequest_eq (e : Element) (add : Bool) (c : ElementCover) :
    applyRequest ⟨e, cause, add, x, x⟩ c = c.asked cause x (some add) := by
  unfold applyRequest ElementCover.asked Causes.asked gapStartAfter
  dsimp only
  cases (c.causes.put cause add).nonempty <;> cases c.causes.nonempty <;> rfl

theorem requestChange_eq (e : Element) (add : Bool) (c : ElementCover) :
    requestChange ⟨e, cause, add, x, x⟩ c =
      (gapChange x c.gapStart c.causes (c.causes.put cause add)).map fun k =>
        ⟨k.1, gapCauseCode cause, e, k.2, x⟩ := by
  unfold requestChange gapChange
  dsimp only
  cases (c.causes.put cause add).nonempty <;> cases c.causes.nonempty <;> rfl

theorem gapChange_same (start : Option Int) (c : Causes) : gapChange x start c c = none := by
  unfold gapChange
  cases c.nonempty <;> rfl

theorem applyRequests_of_list (l : List Element) (distinct : l.Nodup) :
    s.applyRequests (l.filterMap fun e => (ask e).map fun add => ⟨e, cause, add, x, x⟩) =
      { s with cover := { s.cover with element := Eight.ofFn fun e =>
        if e ∈ l then (s.cover.element.get e).asked cause x (ask e) else s.cover.element.get e } } := by
  induction l generalizing s with
  | nil => rfl
  | cons i l ih =>
    have absent : i ∉ l ∧ l.Nodup := List.nodup_cons.1 distinct
    cases hask : ask i with
    | none =>
      rw [List.filterMap_cons, hask]
      refine (ih absent.2).trans (congrArg (fun v => { s with cover := { s.cover with element := v } })
        (Eight.ext_get fun e => ?_))
      by_cases here : e = i
      · simp [here, hask, asked_none]
      · simp [here]
    | some add =>
      rw [List.filterMap_cons, hask]
      have first : s.applyRequests (⟨i, cause, add, x, x⟩ :: l.filterMap fun e =>
          (ask e).map fun add => (⟨e, cause, add, x, x⟩ : CauseRequest)) =
        (s.modElementCover i (applyRequest ⟨i, cause, add, x, x⟩)).applyRequests (l.filterMap fun e =>
          (ask e).map fun add => (⟨e, cause, add, x, x⟩ : CauseRequest)) := rfl
      refine first.trans ((ih absent.2).trans (congrArg (fun v => { s with cover := { s.cover with element := v } })
        (Eight.ext_get fun e => ?_)))
      have set_get : (s.modElementCover i (applyRequest ⟨i, cause, add, x, x⟩)).cover.element =
        s.cover.element.set i (applyRequest ⟨i, cause, add, x, x⟩ (s.cover.element.get i)) := rfl
      rw [set_get]
      by_cases here : e = i
      · subst here
        simp [absent.1, hask, applyRequest_eq]
      · simp [here, Eight.get_set_other _ here]

theorem applyRequests_eq : s.applyRequests (causeRequests cause x ask) = { s with cover := s.cover.asked cause x ask } := by
  rw [causeRequests, applyRequests_of_list elements (by decide)]
  simp only [mem_elements, if_true]
  rfl

theorem requestGroups_eq : s.requestGroups (causeRequests cause x ask) =
    groupChanges (elements.filterMap (noteChange (gapCauseCode cause) x (s.cover.askedChange cause x ask))) := by
  rw [State.requestGroups, causeRequests, List.filterMap_filterMap]
  refine congrArg groupChanges (List.filterMap_congr fun e _ => ?_)
  cases hask : ask e with
  | none => simp [noteChange, Coverage.askedChange, hask, Causes.asked, gapChange_same]
  | some add =>
    show requestChange ⟨e, cause, add, x, x⟩ _ = _
    rw [requestChange_eq, noteChange, Coverage.askedChange, hask]
    rfl

/-- The GAP notices the requests bring. -/
def State.askedNotices (s : State) (cause : Cause) (x : Int) (ask : Element → Option Bool) : List Frame :=
  s.noticesOf (gapCauseCode cause) x (s.cover.askedChange cause x ask)

theorem foldl_gapNotice (gs : List GapGroup) (same : t.control.address = s.control.address) :
    (gs.map fun g (u : State) => u.append (u.gapNotice g)).foldl (fun u act => act u) t =
      t.appendAll (gs.map s.gapNotice) := by
  induction gs generalizing t with
  | nil => rfl
  | cons g gs ih =>
    have frame : t.gapNotice g = s.gapNotice g := by rw [State.gapNotice, State.gapNotice, same]
    show (gs.map fun g (u : State) => u.append (u.gapNotice g)).foldl (fun u act => act u) (t.append (t.gapNotice g)) = _
    rw [frame, ih (((append_within t _).setup_address rfl).trans same)]
    rfl

/-- The requests of one event in an active account: the cause sets and gap starts change, then the notices go out. -/
theorem requestCauses_active (active : s.cover.accounting = .active) :
    s.requestCauses (causeRequests cause x ask) =
      ({ s with cover := s.cover.asked cause x ask } : State).appendAll (s.askedNotices cause x ask) := by
  rw [State.requestCauses, State.causeActs, if_pos active, List.foldl_cons, applyRequests_eq, requestGroups_eq]
  exact foldl_gapNotice (s := s) (t := { s with cover := s.cover.asked cause x ask }) _ rfl

theorem requestCauses_idle (idle : s.cover.accounting = .idle) (qs : List CauseRequest) : s.requestCauses qs = s := by
  rw [State.requestCauses, State.causeActs, if_neg (by rw [idle]; decide)]
  rfl

/-- The elements of a mask ask for one cause. -/
theorem requests_of_mask (m : ElementSet) (add : Bool) :
    (m.members.map fun e => (⟨e, cause, add, x, x⟩ : CauseRequest)) =
      causeRequests cause x fun e => if m.get e then some add else none := by
  rw [Eight.members, ← List.filterMap_eq_filter, List.map_filterMap, causeRequests]
  refine List.filterMap_congr fun e _ => ?_
  cases h : m.get e <;> simp [Option.guard, h]

/-- One element asks for a cause. -/
theorem requests_of_one (e : Element) (add : Bool) :
    [(⟨e, cause, add, x, x⟩ : CauseRequest)] = causeRequests cause x fun i => if i = e then some add else none := by
  have parts : causeRequests cause x (fun i => if i = e then some add else none) =
      (elements.filter fun i => decide (i = e)).map fun i => ⟨i, cause, add, x, x⟩ := by
    rw [← List.filterMap_eq_filter, List.map_filterMap, causeRequests]
    refine List.filterMap_congr fun i _ => ?_
    by_cases here : i = e <;> simp [here, Option.guard]
  rw [parts, elements_filter_eq]
  rfl
end

end Sys2Proof.Machine
end

section
/-! SUPPORT. A cause put into every enabled element's set, the halt, and the coupling of a shot; then the theorems that
settle O25, O41 and O52. -/

namespace Sys2Proof.Machine

variable {s t u : State}

/-! ## A cause put into every enabled element's set (R101 to R103, R110 to R112) -/

theorem put_true_nonempty (c : Causes) (cause : Cause) : (c.put cause true).nonempty = true := by
  cases cause <;> simp [Causes.put, Causes.nonempty]

theorem put_true_has (c : Causes) (cause : Cause) : (c.put cause true).has cause = true := by cases cause <;> rfl

theorem gapChange_added (x : Int) (start : Option Int) (c : Causes) (cause : Cause) :
    gapChange x start c (c.put cause true) = if c.nonempty = false then some (false, x) else none := by
  rw [gapChange, put_true_nonempty]
  cases c.nonempty <;> rfl

theorem gapStartAfter_added (x : Int) (start : Option Int) (c : Causes) (cause : Cause) :
    gapStartAfter x start c (c.put cause true) = if c.nonempty then start else some x := by
  rw [gapStartAfter, put_true_nonempty]
  cases c.nonempty <;> rfl

theorem abandonAll_get (c : Coverage) (e : Element) :
    c.abandonAll.element.get e = { c.element.get e with run := none, backWall := .present } := Eight.get_map ..

/-- The account when every run and loss record has been abandoned and the elements of a mask have taken a cause, as a
lift and a halt leave it; an idle account stands. -/
def Coverage.abandoned (cause : Cause) (x : Int) (mask : ElementSet) (c : Coverage) : Coverage :=
  if c.accounting = .active then c.abandonAll.asked cause x fun e => if mask.get e then some true else none else c

theorem abandoned_idle {c : Coverage} (idle : c.accounting = .idle) (cause : Cause) (x : Int) (mask : ElementSet) :
    c.abandoned cause x mask = c := if_neg (by rw [idle]; decide)

theorem abandoned_get {c : Coverage} (active : c.accounting = .active) (cause : Cause) (x : Int) (mask : ElementSet)
    (e : Element) :
    (c.abandoned cause x mask).element.get e =
      if mask.get e then
        { c.element.get e with
          run := none, backWall := .present, causes := (c.element.get e).causes.put cause true
          gapStart := if (c.element.get e).causes.nonempty then (c.element.get e).gapStart else some x }
      else { c.element.get e with run := none, backWall := .present } := by
  rw [Coverage.abandoned, if_pos active, Coverage.asked, Eight.get_ofFn, abandonAll_get]
  cases mask.get e with
  | true =>
    rw [if_pos rfl, if_pos rfl, ElementCover.asked]
    simp only [Causes.asked, gapStartAfter_added]
  | false => exact asked_none _

/-- A lift and a halt at the coverage monitor: the account, and at most one GAP OPEN. -/
theorem takeCause_notices (cause : Cause) :
    ∃ gaps, s.opensGaps (gapCauseCode cause) gaps ∧ gaps.length ≤ 1 ∧
      (if s.cover.accounting = .active then
          (s.modCover Coverage.abandonAll).requestForAll s.control.enableMask cause true
        else s) =
        ({ s with cover := s.cover.abandoned cause s.currentX s.control.enableMask } : State).appendAll gaps := by
  let change : GapChanges := fun e =>
    if s.cover.accounting = .active ∧ s.control.enableMask.get e = true ∧
        (s.cover.element.get e).causes.nonempty = false then some (false, s.currentX)
    else none
  refine ⟨s.noticesOf (gapCauseCode cause) s.currentX change, noticesOf_gapNotices .., ?_, ?_⟩
  · refine length_noticesOf_le_one (false, s.currentX) fun e k changes => ?_
    by_cases opens : s.cover.accounting = .active ∧ s.control.enableMask.get e = true ∧
        (s.cover.element.get e).causes.nonempty = false
    · rw [show change e = some (false, s.currentX) from if_pos opens] at changes
      exact (Option.some.inj changes).symm
    · rw [show change e = none from if_neg opens] at changes
      exact absurd changes nofun
  · cases accounting : s.cover.accounting with
    | idle =>
      have unchanged : ∀ e, change e = none := fun e => if_neg (by rw [accounting]; rintro ⟨active, -⟩; cases active)
      rw [noticesOf_nothing unchanged, abandoned_idle accounting, if_neg (by decide)]
      rfl
    | active =>
      have asks : (s.modCover Coverage.abandonAll).askedNotices cause s.currentX
          (fun e => if s.control.enableMask.get e then some true else none) =
          s.noticesOf (gapCauseCode cause) s.currentX change := by
        have same : (s.modCover Coverage.abandonAll).cover.askedChange cause s.currentX
            (fun e => if s.control.enableMask.get e then some true else none) = change := by
          funext e
          show gapChange s.currentX _ _ _ = _
          rw [show (s.modCover Coverage.abandonAll).cover.element.get e = _ from abandonAll_get s.cover e]
          cases on : s.control.enableMask.get e with
          | true =>
            simp only [if_true, Causes.asked, gapChange_added, change, accounting, on, true_and]
          | false =>
            have still : change e = none := if_neg fun ⟨_, enabled, _⟩ => by rw [on] at enabled; cases enabled
            simp only [still, on, Bool.false_eq_true, if_false, Causes.asked]
            exact gapChange_same _ _
        rw [State.askedNotices, same]
        rfl
      rw [if_pos rfl, State.requestForAll, requests_of_mask, Coverage.abandoned, if_pos accounting, ← asks]
      exact requestCauses_active accounting

/-! ## The halt (R112, R165, R169) -/

theorem inRun_iff (st : StationState) : st.inRun = true ↔ st = .running ∨ st = .lifted ∨ st = .still := by
  cases st <;> decide

theorem not_inRun_iff (st : StationState) :
    st.inRun = false ↔ st = .starting ∨ st = .unconfigured ∨ st = .ready ∨ st = .halted := by
  cases st <;> decide

/-- The part once a halt has been worked, but for its notices. -/
def State.halting (s : State) : State := { s with
  control := { s.control with
    state := .halted, liftFromStill := false
    episodes := { s.control.episodes with
      chainFull := s.control.episodes.chainFull && s.tracker.chains.isEmpty } }
  sched := { s.sched with state := .off }
  pulser := { s.pulser with hv := .off }
  tracker := { s.tracker with
    chains := [], inFlight := none, discarded := min (s.tracker.discarded + s.tracker.chains.length) 65535 }
  cover := s.cover.abandoned .halted s.currentX s.control.enableMask }

theorem trackHalt_eq (s : State) : s.trackHalt = { s with
    tracker := { s.tracker with
      chains := [], inFlight := none, discarded := min (s.tracker.discarded + s.tracker.chains.length) 65535 }
    control := { s.control with episodes := { s.control.episodes with
      chainFull := s.control.episodes.chainFull && s.tracker.chains.isEmpty } } } := by
  unfold State.trackHalt
  cases chains : s.tracker.chains with
  | nil => simp only [List.isEmpty_nil, Bool.and_true]; rfl
  | cons c cs => simp only [List.isEmpty_cons, Bool.and_false]; rfl

theorem workHalt_run (run : s.inRun) :
    ∃ gaps f, s.opensGaps 2 gaps ∧ gaps.length ≤ 1 ∧ f.showsState .halted ∧
      s.workHalt = s.halting.appendAll (gaps ++ [f]) := by
  let before : State := ((s.modControl fun c => { c with state := .halted, liftFromStill := false }).schedHalt).trackHalt
  have before_eq : before = { s.halting with cover := s.cover } := trackHalt_eq _
  have worked : s.workHalt = before.coverHalt.queueStatus 0 := by
    rcases (inRun_iff _).1 run with state | state | state <;> rw [State.workHalt, state] <;> rfl
  obtain ⟨gaps, opens, short, covered⟩ := takeCause_notices (s := before) .halted
  have told := appendAll_told (s := s.halting) gaps
  have halted : before.coverHalt = s.halting.appendAll gaps := by
    refine covered.trans ?_
    rw [before_eq]
    rfl
  refine ⟨gaps, (s.halting.appendAll gaps).statusNotice 0, ?_, short, ?_, ?_⟩
  · rw [before_eq] at opens
    exact opens
  · have shows := statusNotice_showsState (s.halting.appendAll gaps)
    rw [told.within.station_state rfl] at shows
    exact shows
  · rw [worked, halted, appendAll_append]
    rfl

theorem workHalt_outside (outside : s.control.state.inRun = false) : s.workHalt = s := by
  rcases (not_inRun_iff _).1 outside with state | state | state | state <;> rw [State.workHalt, state]

/-- What a halt leaves of an element's share of an active account. -/
theorem halting_account (active : s.cover.accounting = .active) (e : Element) :
    (s.halting.cover.element.get e).run = none ∧ (s.halting.cover.element.get e).backWall = .present ∧
    (s.control.enableMask.get e = true → (s.halting.cover.element.get e).causes.halted = true) ∧
    (s.control.enableMask.get e = true → (s.cover.element.get e).causes.nonempty = false →
      (s.halting.cover.element.get e).gapStart = some s.currentX) ∧
    ((s.cover.element.get e).causes.nonempty = true →
      (s.halting.cover.element.get e).gapStart = (s.cover.element.get e).gapStart) := by
  rw [show s.halting.cover = s.cover.abandoned .halted s.currentX s.control.enableMask from rfl, abandoned_get active]
  cases on : s.control.enableMask.get e with
  | true =>
    rw [if_pos rfl]
    exact ⟨rfl, rfl, fun _ => rfl, fun _ empty => if_neg (by rw [empty]; decide), fun some => if_pos some⟩
  | false =>
    rw [if_neg Bool.noConfusion]
    exact ⟨rfl, rfl, nofun, nofun, fun _ => rfl⟩

/-- Settles O25. -/
theorem haltEndsTheRunAtOnce : Obligations.HaltEndsTheRunAtOnce := by
  unfold Obligations.HaltEndsTheRunAtOnce
  intro src dest f rest s w u
  have worked : exec (.halt src dest) s = .next u.workHalt := congrArg Host.Outcome.next (w.dispatch _)
  have state : u.control.state = s.control.state := takeHead_state s _
  refine ⟨fun outside => ?_, fun run => ?_⟩
  · rw [worked, workHalt_outside]
    rw [state]
    rcases outside with h | h | h <;> rw [h] <;> rfl
  · have run' : u.inRun := by rw [State.inRun, state]; exact run
    obtain ⟨gaps, g, opens, short, shows, halts⟩ := workHalt_run run'
    have told := appendAll_told (s := u.halting) (gaps ++ [g])
    have within := told.within
    rw [← halts] at told within
    refine ⟨u.workHalt, worked, within.station_state rfl, (within.run_runNumber rfl).trans (takeHead_runNumber s f.source),
      (within.mask rfl).trans (takeHead_enableMask s f.source), (within.sched rfl).trans ?_, (within.pulser rfl).trans ?_,
      (within.tracker rfl).trans ?_, fun active e => ?_, told.chainFull.trans ?_, fun room => ⟨gaps, g, ?_, shows, ?_⟩,
      (within.judge rfl).trans (takeHead_judge s f.source), within.pair rfl, (within.odo rfl).trans (takeHead_odo s f.source),
      ?_, ?_⟩
    · simp [State.halting, u]
    · simp [State.halting, u]
    · simp [State.halting, u]
    · rw [within.cover rfl]
      have account := halting_account (s := u) (by simpa [u, takeHead_cover] using active) e
      simpa [u, takeHead_cover] using account
    · simp [State.halting, u]
    · simpa [State.opensGaps, u, takeHead_cover] using opens
    · have fits : u.halting.hasRoomFor (gaps ++ [g]).length := by
        have room' : u.hasRoomFor 2 := (takeHead_hasRoomFor s f.source 2).2 room
        simp only [State.hasRoomFor, List.length_append, List.length_singleton] at room' ⊢
        exact Nat.le_trans (Nat.add_le_add_left (by omega) _) room'
      rw [halts, appendAll_fits _ fits]
      rfl
    · have setup : u.sameSetup u.workHalt := within.sameSetup rfl
      simpa [State.sameSetup, u] using setup
    · exact within.sameOutside ⟨rfl, rfl, rfl, rfl, rfl⟩

/-! ## The halt symbol (R146) -/

/-- Settles O41. -/
theorem haltSymbolAbortsAndHalts : Obligations.HaltSymbolAbortsAndHalts := by
  unfold Obligations.HaltSymbolAbortsAndHalts
  intro ns s rx low high heard
  let u : State := { s with link := heard }
  have worked : exec (.haltSymbol (.released ns)) s = .next u.workHalt := by
    refine congrArg Host.Outcome.next ((onPulse_released rx).trans ?_)
    rw [classifyPulse_halt low high]
    show (State.abortSending _).workHalt = _
    rw [abortSending_eq]
    rfl
  refine ⟨fun outside => worked.trans (congrArg Host.Outcome.next (workHalt_outside outside)), fun run => ?_⟩
  obtain ⟨gaps, g, opens, short, shows, halts⟩ := workHalt_run (s := u) run
  have told := appendAll_told (s := u.halting) (gaps ++ [g])
  have within := told.within
  rw [← halts] at told within
  refine ⟨u.workHalt, worked, within.station_state rfl, within.mask rfl, within.sched rfl, within.pulser rfl,
    within.tracker rfl, fun active e => ?_, told.chainFull, fun room => ⟨gaps, g, opens, shows, ?_⟩,
    within.rx_rx rfl, within.counts rfl, within.rx_rxQueue rfl, fun sending => ?_, fun other some => ?_, told.grows,
    within.judge rfl, within.pair rfl, within.odo rfl, within.sameSetup rfl⟩
  · rw [within.cover rfl]
    exact halting_account (s := u) active e
  · have fits : u.halting.hasRoomFor (gaps ++ [g]).length := by
      simp only [State.hasRoomFor, List.length_append, List.length_singleton] at room ⊢
      exact Nat.le_trans (Nat.add_le_add_left (by omega) _) room
    rw [halts, appendAll_fits _ fits]
    rfl
  · have heard_tx : u.halting.link.tx = .waiting := if_pos sending
    rw [told.busy (by rw [heard_tx]; decide), heard_tx]
  · have heard_tx : u.halting.link.tx = s.link.tx := if_neg other
    rw [told.busy (by rw [heard_tx]; exact some), heard_tx]

end Sys2Proof.Machine
end

section
/-! SUPPORT. One element's cause request, the coupling and the back-wall of a shot, and the disabling of an element; then
the theorems that settle O50 and O52. -/

namespace Sys2Proof.Machine

variable {s t u : State}

/-! ## One element's cause request (R102 to R105) -/

/-- The account with one element's share changed. -/
def Coverage.withElement (e : Element) (d : ElementCover) (c : Coverage) : Coverage :=
  { c with element := c.element.set e d }

theorem withElement_get (c : Coverage) (e : Element) (d : ElementCover) : (c.withElement e d).element.get e = d :=
  Eight.get_set_same ..

theorem withElement_get_other (c : Coverage) {e i : Element} (other : i ≠ e) (d : ElementCover) :
    (c.withElement e d).element.get i = c.element.get i := Eight.get_set_other _ other _

theorem withElement_withElement (c : Coverage) (e : Element) (d d' : ElementCover) :
    (c.withElement e d).withElement e d' = c.withElement e d' := by
  refine congrArg (fun v => { c with element := v }) (Eight.ext_get fun i => ?_)
  by_cases here : i = e
  · simp [here]
  · rw [Eight.get_set_other _ here, Eight.get_set_other _ here]
    exact Eight.get_set_other _ here _

theorem modElementCover_eq (e : Element) (f : ElementCover → ElementCover) :
    s.modElementCover e f = { s with cover := s.cover.withElement e (f (s.cover.element.get e)) } := rfl

/-- A cause taken out can close a gap and opens none. -/
theorem put_false_nonempty (c : Causes) (cause : Cause) (after : (c.put cause false).nonempty = true) :
    c.nonempty = true := by
  obtain ⟨a, b, d, e, f⟩ := c
  revert a b d e f
  cases cause <;> decide

theorem gapChange_taken (x : Int) (start : Option Int) (c : Causes) (cause : Cause) :
    gapChange x start c (c.put cause false) =
      if c.nonempty && !(c.put cause false).nonempty then some (true, start.getD x) else none := by
  have kept := put_false_nonempty c cause
  rw [gapChange]
  cases before : c.nonempty with
  | true => rfl
  | false =>
    cases after : (c.put cause false).nonempty with
    | true => rw [kept after] at before; cases before
    | false => rfl

theorem gapStartAfter_taken (x : Int) (start : Option Int) (c : Causes) (cause : Cause) :
    gapStartAfter x start c (c.put cause false) =
      if c.nonempty && !(c.put cause false).nonempty then none else start := by
  have kept := put_false_nonempty c cause
  rw [gapStartAfter]
  cases before : c.nonempty with
  | true => rfl
  | false =>
    cases after : (c.put cause false).nonempty with
    | true => rw [kept after] at before; cases before
    | false => rfl

/-- The one GAP notice of a gap of one element that opens or closes. -/
def State.oneNotice (s : State) (code : BitVec 3) (x : Int) (e : Element) (k : Bool × Int) : Frame :=
  s.gapNotice ⟨k.1, code, noElements.set e true, k.2, x⟩

theorem oneNotice_gapNotices (code : BitVec 3) (x : Int) (e : Element) (k : Bool × Int) :
    gapNotices s.control.address code x (fun i => if i = e then some k else none) [s.oneNotice code x e k] := by
  have told := noticesOf_gapNotices s code x fun i => if i = e then some k else none
  rw [noticesOf_single] at told
  exact told

/-- One element's request in an active account: its share changes, and one notice goes out if its gap opens or
closes. -/
theorem requestOne (active : s.cover.accounting = .active) (e : Element) (cause : Cause) (add : Bool) (x : Int) :
    let c := s.cover.element.get e
    s.requestCauses [⟨e, cause, add, x, x⟩] =
      ({ s with cover := s.cover.withElement e (c.asked cause x (some add)) } : State).appendAll
        ((gapChange x c.gapStart c.causes (c.causes.put cause add)).map (s.oneNotice (gapCauseCode cause) x e)).toList := by
  intro c
  have account : s.cover.asked cause x (fun i => if i = e then some add else none) =
      s.cover.withElement e (c.asked cause x (some add)) := by
    refine congrArg (fun v => { s.cover with element := v }) (Eight.ext_get fun i => ?_)
    simp only [Eight.get_ofFn]
    by_cases here : i = e
    · subst here
      rw [if_pos rfl, Eight.get_set_same]
    · rw [if_neg here, asked_none, Eight.get_set_other _ here]
  have changes : s.cover.askedChange cause x (fun i => if i = e then some add else none) =
      fun i => if i = e then gapChange x c.gapStart c.causes (c.causes.put cause add) else none := by
    funext i
    unfold Coverage.askedChange
    by_cases here : i = e
    · subst here
      simp only [if_true]
      rfl
    · simp only [here, if_false]
      exact gapChange_same _ _
  rw [requests_of_one, requestCauses_active active, account, State.askedNotices, changes]
  cases change : gapChange x c.gapStart c.causes (c.causes.put cause add) with
  | none =>
    rw [noticesOf_nothing fun i => ite_self _]
    rfl
  | some k =>
    rw [noticesOf_single]
    rfl

/-! ## The coupling of a shot (R99, R100) -/

section
variable {r : ShotResult}

theorem coupleShot_coupled (coupled : (s.cover.element.get r.element).coupling = .coupled) :
    s.coupleShot r = s.coupledShot r := by rw [State.coupleShot, coupled]

theorem coupleShot_uncoupled (uncoupled : (s.cover.element.get r.element).coupling = .uncoupled) :
    s.coupleShot r = s.uncoupledShot r := by rw [State.coupleShot, uncoupled]

/-- An element's share once its coupling has changed, before its cause is asked for, and the request after it. -/
theorem requestAfter (active : s.cover.accounting = .active) (e : Element) (d : ElementCover) (cause : Cause) (add : Bool)
    (x : Int) :
    ({ s with cover := s.cover.withElement e d } : State).requestCauses [⟨e, cause, add, x, x⟩] =
      ({ s with cover := s.cover.withElement e (d.asked cause x (some add)) } : State).appendAll
        ((gapChange x d.gapStart d.causes (d.causes.put cause add)).map (s.oneNotice (gapCauseCode cause) x e)).toList := by
  have worked := requestOne (s := { s with cover := s.cover.withElement e d }) active e cause add x
  simp only [withElement_get, withElement_withElement] at worked
  exact worked

/-- A run of bad shots that has lasted the coupling run: the element is UNCOUPLED. -/
theorem coupledShot_limit {run : CouplingRun} (bad : r.found = false)
    (running : (s.cover.element.get r.element).run = some run)
    (lasted : 1000 * s.station.couplingRun ≤ r.travel - run.travel) :
    s.coupledShot r = ({ s with cover := s.cover.withElement r.element { s.cover.element.get r.element with
      coupling := .uncoupled, run := none, backWall := .present } } : State).requestCauses
        [⟨r.element, .uncoupled, true, run.x, run.x⟩] := by
  have limit : s.couplingLimit ≤ r.travel - run.travel := lasted
  simp only [State.coupledShot, bad, running, limit, Bool.false_eq_true, if_false, if_true]
  rfl

/-- A run of good shots that has lasted the coupling run: the element is COUPLED. -/
theorem uncoupledShot_limit {run : CouplingRun} (good : r.found = true)
    (running : (s.cover.element.get r.element).run = some run)
    (lasted : 1000 * s.station.couplingRun ≤ r.travel - run.travel) :
    s.uncoupledShot r = ({ s with cover := s.cover.withElement r.element { s.cover.element.get r.element with
      coupling := .coupled, run := none } } : State).requestCauses
        [⟨r.element, .uncoupled, false, run.x, run.x⟩] := by
  have limit : s.couplingLimit ≤ r.travel - run.travel := lasted
  simp only [State.uncoupledShot, good, running, limit, if_true]
  rfl

/-- A shot changes the account of its own element alone. -/
theorem coupleShot_cover (active : s.cover.accounting = .active) :
    ∃ d, (s.coupleShot r).cover = s.cover.withElement r.element d := by
  let c := s.cover.element.get r.element
  have stays : s.cover = s.cover.withElement r.element c :=
    congrArg (fun v => { s.cover with element := v }) (Eight.set_same _ _).symm
  have asks (d : ElementCover) (add : Bool) (x : Int) :
      (({ s with cover := s.cover.withElement r.element d } : State).requestCauses
        [⟨r.element, .uncoupled, add, x, x⟩]).cover =
      s.cover.withElement r.element (d.asked .uncoupled x (some add)) := by
    rw [requestAfter active]
    exact (appendAll_told _).within.cover rfl
  cases coupling : c.coupling with
  | coupled =>
    rw [coupleShot_coupled coupling, State.coupledShot]
    split
    · exact ⟨_, rfl⟩
    · split
      · exact ⟨_, rfl⟩
      · split
        · exact ⟨_, asks ..⟩
        · exact ⟨c, stays⟩
  | uncoupled =>
    rw [coupleShot_uncoupled coupling, State.uncoupledShot]
    split
    · split
      · exact ⟨_, rfl⟩
      · split
        · exact ⟨_, asks ..⟩
        · exact ⟨c, stays⟩
    · exact ⟨_, rfl⟩

theorem coupleShot_accounting (active : s.cover.accounting = .active) :
    (s.coupleShot r).cover.accounting = s.cover.accounting := by
  obtain ⟨d, account⟩ := coupleShot_cover (r := r) active
  rw [account]
  rfl

theorem shotX_eq (p : FinePos) : s.shotX p =
    max (-2147483648) (min 2147483647 (p.mm + s.station.mountOffset + ((p.um : Int) + 500) / 1000)) := by
  have plain : (p.um : Int) + 0 + 500 = p.um + 500 := by omega
  unfold State.shotX carPosition
  rw [plain]
  rfl

/-- A request whose change is told: one GAP notice, queued or dropped. -/
theorem appendAll_toldGap {cover : Coverage} {code : BitVec 3} {x : Int} {e : Element} {k : Bool × Int}
    (worked : t = ({ s with cover := cover } : State).appendAll ((some k).map (s.oneNotice code x e)).toList) :
    (s.hasRoomFor 1 → ∃ f, gapNotices s.control.address code x (fun i => if i = e then some k else none) [f] ∧
      t = { s with cover := t.cover, link := s.link.queueing [f] }) ∧
    (24 ≤ s.link.txQueue.length →
      t = { s.dropping { s.link.drops with gap := min (s.link.drops.gap + 1) 65535 } with cover := t.cover }) := by
  have one : t = ({ s with cover := cover } : State).append (s.oneNotice code x e k) := worked
  have stays : t.cover = cover := by rw [one]; exact (append_within _ _).cover rfl
  refine ⟨fun room => ⟨_, oneNotice_gapNotices code x e k, ?_⟩, fun full => ?_⟩
  · rw [stays, one, append_fits _ (by exact room)]
  · rw [stays, one, append_dropped _ (by exact full)]
    rfl
end

/-- Settles O52. -/
theorem shotsMoveTheCoverageAccount : Obligations.ShotsMoveTheCoverageAccount := by
  unfold Obligations.ShotsMoveTheCoverageAccount
  refine ⟨fun r s => ?_, fun r run s active running lasted => ?_, fun r s => ⟨fun active => ?_, fun idle => ?_⟩,
    fun r s active => ?_⟩
  · intro c x runs
    have latched : x = s.shotX r.pos := (shotX_eq r.pos).symm
    refine ⟨fun coupled good => ?_, fun coupled bad none => ?_, fun uncoupled bad => ?_, fun uncoupled good none => ?_,
      fun run running short each => ?_⟩
    · rw [coupleShot_coupled coupled, State.coupledShot, good]
      rfl
    · rw [coupleShot_coupled coupled, latched]
      simp only [State.coupledShot, bad, show (s.cover.element.get r.element).run = Option.none from none]
      rfl
    · rw [coupleShot_uncoupled uncoupled, State.uncoupledShot, bad]
      rfl
    · rw [coupleShot_uncoupled uncoupled, latched]
      simp only [State.uncoupledShot, good, show (s.cover.element.get r.element).run = Option.none from none]
      rfl
    · have runs : (s.cover.element.get r.element).run = some run := running
      have limit : ¬ s.couplingLimit ≤ r.travel - run.travel := Nat.not_le.2 short
      rcases each with ⟨coupled, bad⟩ | ⟨uncoupled, good⟩
      · rw [coupleShot_coupled coupled]
        simp only [State.coupledShot, bad, runs, limit, Bool.false_eq_true, if_false]
      · rw [coupleShot_uncoupled uncoupled]
        simp only [State.uncoupledShot, good, runs, limit, if_true, if_false]
  · intro t c told
    obtain ⟨d, account⟩ := coupleShot_cover (r := r) active
    refine ⟨fun i other => ?_, ?_, fun coupled bad => ?_, fun uncoupled good => ?_⟩
    · show (s.coupleShot r).cover.element.get i = _
      rw [account, withElement_get_other _ other]
    · show (s.coupleShot r).cover = { s.cover with element := (s.coupleShot r).cover.element }
      rw [account]
      rfl
    · have worked : t = _ :=
        (coupleShot_coupled coupled).trans ((coupledShot_limit bad running lasted).trans (requestAfter active ..))
      have cover : t.cover = _ := (congrArg State.cover worked).trans ((appendAll_told _).within.cover rfl)
      rw [gapChange_added] at worked
      refine ⟨?_, fun empty => ?_, fun some => ?_⟩
      · rw [cover, withElement_get, ElementCover.asked]
        simp only [Causes.asked, gapStartAfter_added]
        rfl
      · rw [if_pos (by exact empty)] at worked
        exact appendAll_toldGap worked
      · rw [if_neg (by rw [show c.causes.nonempty = true from some]; decide)] at worked
        rw [cover]
        exact worked
    · have worked : t = _ :=
        (coupleShot_uncoupled uncoupled).trans ((uncoupledShot_limit good running lasted).trans (requestAfter active ..))
      have cover : t.cover = _ := (congrArg State.cover worked).trans ((appendAll_told _).within.cover rfl)
      let d : ElementCover := { c with coupling := .coupled, run := none }
      let causes : Causes := { c.causes with uncoupled := false }
      have change : gapChange run.x d.gapStart d.causes (d.causes.put .uncoupled false) =
          if c.causes.nonempty && !causes.nonempty then some (true, c.gapStart.getD run.x) else none :=
        gapChange_taken ..
      have start : gapStartAfter run.x d.gapStart d.causes (d.causes.put .uncoupled false) =
          if c.causes.nonempty && !causes.nonempty then none else c.gapStart := gapStartAfter_taken ..
      rw [change] at worked
      refine ⟨?_, fun closes => ?_, fun stays => ?_⟩
      · rw [cover, withElement_get]
        exact congrArg (fun g => { d with causes := causes, gapStart := g }) start
      · rw [if_pos (by exact closes)] at worked
        exact appendAll_toldGap worked
      · rw [if_neg (by rw [show (c.causes.nonempty && !causes.nonempty) = false from stays]; decide)] at worked
        rw [cover]
        exact worked
  · have still : (s.coupleShot r).cover.accounting = .active := (coupleShot_accounting active).trans active
    rw [State.coverResult, State.coverCoupling, if_pos active, State.coverBackWall, if_pos still]
  · have none : ¬ s.cover.accounting = .active := by rw [idle]; decide
    rw [State.coverResult, State.coverCoupling, if_neg none, State.coverBackWall, if_neg none]
  · intro c x walled
    have latched : x = s.shotX r.pos := (shotX_eq r.pos).symm
    refine ⟨fun absent open' good coupled => ?_, fun absent other => ?_, fun startX absent lost => ?_,
      fun startX seen lost => ?_, fun seen present => ?_, fun none => ?_⟩
    · rw [latched]
      have stands : (s.cover.element.get r.element).backWall = .present := open'
      have held : (s.cover.element.get r.element).coupling = .coupled := coupled
      simp only [State.backWallShot, absent, stands, good, held]
      rfl
    · have unfit : (r.found && (s.cover.element.get r.element).coupling == .coupled) = false := by
        rcases other with bad | uncoupled
        · rw [bad]
          rfl
        · rw [show (s.cover.element.get r.element).coupling = .uncoupled from uncoupled]
          exact Bool.and_false _
      cases wall : (s.cover.element.get r.element).backWall <;>
        simp only [State.backWallShot, absent, wall, unfit, Bool.false_eq_true, if_false]
    · have record : (s.cover.element.get r.element).backWall = .lost startX := lost
      simp only [State.backWallShot, absent, record]
    · have record : (s.cover.element.get r.element).backWall = .lost startX := lost
      rw [latched]
      simp only [State.backWallShot, seen, record]
      rfl
    · have stands : (s.cover.element.get r.element).backWall = .present := present
      simp only [State.backWallShot, seen, stands]
    · simp only [State.backWallShot, none]

end Sys2Proof.Machine
end

section
/-! SUPPORT. What the judge makes of closed chains whatever the tracker and the monitor hold, closings one after another,
and notices that keep the fault file; then the theorems that settle O24 and O50. -/

namespace Sys2Proof.Machine

variable {s t u : State}

/-! ## The judge reads neither the tracker, nor the monitor, nor the enable mask -/

/-- The part with another chain table, coverage account, enable mask and CHAIN_FULL mark. -/
def State.aside (tracker : Tracker) (cover : Coverage) (mask : ElementSet) (chainFull : Bool) (s : State) : State :=
  { s with
    tracker := tracker, cover := cover
    control := { s.control with
      enableMask := mask, episodes := { s.control.episodes with chainFull := chainFull } } }

theorem aside_self (s : State) :
    s.aside s.tracker s.cover s.control.enableMask s.control.episodes.chainFull = s := rfl

section
variable (tracker : Tracker) (cover : Coverage) (mask : ElementSet) (chainFull : Bool)

theorem append_aside (f : Frame) :
    (s.aside tracker cover mask chainFull).append f = (s.append f).aside tracker cover mask chainFull := by
  by_cases room : s.hasRoomFor 1
  · rw [append_fits f room, append_fits f (by exact room)]
    rfl
  · have full : 24 ≤ s.link.txQueue.length := by
      have cap : Config.txCapacity = 24 := rfl
      simp only [State.hasRoomFor] at room
      omega
    rw [append_dropped f full, append_dropped f (by exact full)]
    rfl

theorem pairOwn_aside (i : Indication) :
    (s.aside tracker cover mask chainFull).pairOwn i = (s.pairOwn i).aside tracker cover mask chainFull := by
  by_cases key : i.key = 0
  · rw [pairOwn_keyless key, pairOwn_keyless key]
    exact append_aside (s := s) ..
  · cases best : s.bestNotice i with
    | none =>
      let listed : State := { s with pair := { s.pair with
        own := enterOwn ⟨i, !s.hasPartner i.element, s.odo.travel⟩ s.pair.own } }
      have worked : (s.aside tracker cover mask chainFull).pairOwn i = _ := pairOwn_unmatched key best
      rw [worked, pairOwn_unmatched key best]
      exact append_aside (s := listed) ..
    | some found =>
      let taken : State := { s with pair := { s.pair with notices := s.pair.notices.eraseIdx found.1 } }
      have worked : (s.aside tracker cover mask chainFull).pairOwn i = _ := pairOwn_matched key best
      rw [worked, pairOwn_matched key best]
      exact append_aside (s := taken) ..

theorem numberIndication_aside (e : Element) (x : Int) (body : Body) :
    (s.aside tracker cover mask chainFull).numberIndication e x body =
      (s.numberIndication e x body).aside tracker cover mask chainFull := by
  by_cases inside : s.judge.excludes x = true
  · rw [numberIndication_suppressed e x body inside, numberIndication_suppressed e x body (by exact inside)]
    rfl
  · let counted : State := { s with judge := { s.judge with
      nextSeq := if s.judge.nextSeq < 65535 then s.judge.nextSeq + 1 else 1 } }
    have worked : (s.aside tracker cover mask chainFull).numberIndication e x body = _ :=
      numberIndication_taken e x body inside
    rw [worked, numberIndication_taken e x body inside]
    exact pairOwn_aside (s := counted) ..

theorem judgeChain_aside (c : Chain) :
    (s.aside tracker cover mask chainFull).judgeChain c = (s.judgeChain c).aside tracker cover mask chainFull := by
  by_cases reported : (s.elem c.element).minLength ≤ c.count ∧ (s.elem c.element).reportLevel ≤ c.peak
  · have worked : (s.aside tracker cover mask chainFull).judgeChain c = _ := judgeChain_reported reported.1 reported.2
    rw [worked, judgeChain_reported reported.1 reported.2]
    exact numberIndication_aside (s := s) ..
  · have short : c.count < (s.elem c.element).minLength ∨ c.peak < (s.elem c.element).reportLevel := by omega
    rw [judgeChain_rejected short, judgeChain_rejected (by exact short)]
    rfl

theorem judgeLoss_aside (e : Element) (startX endX : Int) :
    (s.aside tracker cover mask chainFull).judgeLoss e startX endX =
      (s.judgeLoss e startX endX).aside tracker cover mask chainFull := by
  by_cases long : s.station.backWallMin ≤ lossExtent startX endX
  · exact (if_pos (by exact long)).trans ((numberIndication_aside (s := s) ..).trans
      (congrArg (State.aside tracker cover mask chainFull) (if_pos long).symm))
  · exact (if_neg (by exact long)).trans (congrArg (State.aside tracker cover mask chainFull) (if_neg long).symm)

theorem judgeChains_aside (chains : List Chain) :
    chains.foldl (fun u c => u.judgeChain c) (s.aside tracker cover mask chainFull) =
      (chains.foldl (fun u c => u.judgeChain c) s).aside tracker cover mask chainFull := by
  induction chains generalizing s with
  | nil => rfl
  | cons c chains ih => rw [List.foldl_cons, judgeChain_aside, ih, List.foldl_cons]
end

/-- The judge leaves the chain table, the account, the mask and the CHAIN_FULL mark alone. -/
theorem judgeChains_keeps (chains : List Chain) :
    let t := chains.foldl (fun u c => u.judgeChain c) s
    t.tracker = s.tracker ∧ t.cover = s.cover ∧ t.control.enableMask = s.control.enableMask ∧
      t.control.episodes.chainFull = s.control.episodes.chainFull := by
  intro t
  have same : t = t.aside s.tracker s.cover s.control.enableMask s.control.episodes.chainFull :=
    judgeChains_aside s.tracker s.cover s.control.enableMask s.control.episodes.chainFull chains
  rw [same]
  exact ⟨rfl, rfl, rfl, rfl⟩

theorem judgeChains_within (chains : List Chain) :
    Within Footprint.judging s (chains.foldl (fun u c => u.judgeChain c) s) :=
  Within.foldl _ (fun u c => judgeChain_within u c) _ _

/-! ## Closings one after another (R68, R70) -/

theorem closeNext_none {pick : Chain → Bool} (none : s.tracker.chains.find? pick = none) : s.closeNext pick = s := by
  rw [State.closeNext, none]

theorem closeNext_some {pick : Chain → Bool} {c : Chain} (found : s.tracker.chains.find? pick = some c) :
    s.closeNext pick = (s.judgeChain c).aside { s.tracker with chains := s.tracker.chains.eraseP pick } s.cover
      s.control.enableMask false := by
  rw [State.closeNext, found]
  exact judgeChain_aside (s := s) ..

theorem filter_eraseP_of_find {pick : Chain → Bool} {c : Chain} {chains : List Chain}
    (found : chains.find? pick = some c) :
    chains.filter pick = c :: (chains.eraseP pick).filter pick ∧
      (chains.eraseP pick).filter (fun d => !pick d) = chains.filter fun d => !pick d := by
  induction chains with
  | nil => cases found
  | cons d chains ih =>
    cases picked : pick d with
    | true =>
      rw [List.find?_cons_of_pos picked] at found
      rw [← Option.some.inj found]
      simp [picked]
    | false =>
      rw [List.find?_cons_of_neg (by simp [picked])] at found
      simpa [picked] using ih found

/-- As many closings as there are chains picked close them all, each judged in creation order. -/
theorem closeNext_repeated (pick : Chain → Bool) (n : Nat) (enough : (s.tracker.chains.filter pick).length ≤ n) :
    (List.replicate n (State.closeNext pick)).foldl (fun u act => act u) s =
      ((s.tracker.chains.filter pick).foldl (fun u c => u.judgeChain c) s).aside
        { s.tracker with chains := s.tracker.chains.filter fun c => !pick c } s.cover s.control.enableMask
        (s.control.episodes.chainFull && (s.tracker.chains.filter pick).isEmpty) := by
  induction n generalizing s with
  | zero =>
    have nothing : s.tracker.chains.filter pick = [] := List.length_eq_zero_iff.1 (Nat.le_zero.1 enough)
    have all : s.tracker.chains.filter (fun c => !pick c) = s.tracker.chains :=
      List.filter_eq_self.2 fun c mem => by simpa using List.filter_eq_nil_iff.1 nothing c mem
    rw [nothing, all, List.isEmpty_nil, Bool.and_true]
    rfl
  | succ n ih =>
    rw [List.replicate_succ, List.foldl_cons]
    cases found : s.tracker.chains.find? pick with
    | none =>
      have nothing : s.tracker.chains.filter pick = [] :=
        List.filter_eq_nil_iff.2 fun c mem => List.find?_eq_none.1 found c mem
      rw [closeNext_none found]
      exact ih (by rw [nothing]; exact Nat.zero_le n)
    | some c =>
      obtain ⟨picked, others⟩ := filter_eraseP_of_find found
      have left : (s.closeNext pick).tracker.chains = s.tracker.chains.eraseP pick := by rw [closeNext_some found]; rfl
      have fewer : ((s.closeNext pick).tracker.chains.filter pick).length ≤ n := by
        rw [picked, List.length_cons] at enough
        rw [left]
        omega
      rw [ih fewer, left, others, picked, closeNext_some found, judgeChains_aside, List.isEmpty_cons, Bool.and_false,
        List.foldl_cons]
      rfl

/-! ## Notices that keep the fault file (R148, R149) -/

/-- Up to `n` notices leave the fault file as it is: they fit in the queue, or a TXQ_FULL episode is under way. -/
def State.keepsFile (n : Nat) (s : State) : Prop := s.hasRoomFor n ∨ s.control.episodes.txqFull = true

theorem append_keepsFile (f : Frame) {n : Nat} (keeps : s.keepsFile (n + 1)) :
    (s.append f).control.faults = s.control.faults ∧ (s.append f).keepsFile n := by
  by_cases room : s.hasRoomFor 1
  · rw [append_fits f room]
    refine ⟨rfl, keeps.imp_left fun more => ?_⟩
    simp only [State.hasRoomFor, Link.queueing_txQueue, List.length_append, List.length_singleton] at more ⊢
    omega
  · have full : 24 ≤ s.link.txQueue.length := by
      have cap : Config.txCapacity = 24 := rfl
      simp only [State.hasRoomFor] at room
      omega
    have mark : s.control.episodes.txqFull = true := keeps.resolve_left fun more => room (by
      simp only [State.hasRoomFor] at more ⊢
      omega)
    rw [append_dropped f full, dropping_marked _ mark]
    exact ⟨rfl, .inr mark⟩

theorem keepsFile_mono {m n : Nat} (le : m ≤ n) (keeps : s.keepsFile n) : s.keepsFile m :=
  keeps.imp_left fun room => Nat.le_trans (Nat.add_le_add_left le _) room

/-- What the judge makes of one closed chain or record: it counts, or hands an indication on, whose one notice is
queued or dropped. -/
def State.judgedOnce (s t : State) : Prop :=
  (∃ j, t = { s with judge := j }) ∨
    ∃ j p f, f.kind = Kind.indication ∧ p.peers = s.pair.peers ∧ p.runMark = s.pair.runMark ∧
      p.notices ⊆ s.pair.notices ∧ t = ({ s with judge := j, pair := p } : State).append f

theorem pairOwn_judgedOnce (j : Judge) (i : Indication) :
    s.judgedOnce (({ s with judge := j } : State).pairOwn i) := by
  by_cases key : i.key = 0
  · exact .inr ⟨j, s.pair, _, rfl, rfl, rfl, List.Subset.refl _, pairOwn_keyless key⟩
  · let u : State := { s with judge := j }
    cases best : u.bestNotice i with
    | none =>
      exact .inr ⟨j, { u.pair with own := enterOwn ⟨i, !u.hasPartner i.element, u.odo.travel⟩ u.pair.own }, _, rfl, rfl,
        rfl, List.Subset.refl _, pairOwn_unmatched key best⟩
    | some found =>
      exact .inr ⟨j, { u.pair with notices := u.pair.notices.eraseIdx found.1 }, _, rfl, rfl, rfl,
        (List.eraseIdx_sublist ..).subset, pairOwn_matched key best⟩

theorem numberIndication_judgedOnce (e : Element) (x : Int) (body : Body) :
    s.judgedOnce (s.numberIndication e x body) := by
  by_cases inside : s.judge.excludes x = true
  · exact .inl ⟨_, numberIndication_suppressed e x body inside⟩
  · rw [numberIndication_taken e x body inside]
    exact pairOwn_judgedOnce ..

theorem judgeChain_judgedOnce (c : Chain) : s.judgedOnce (s.judgeChain c) := by
  by_cases reported : (s.elem c.element).minLength ≤ c.count ∧ (s.elem c.element).reportLevel ≤ c.peak
  · rw [judgeChain_reported reported.1 reported.2]
    exact numberIndication_judgedOnce ..
  · exact .inl ⟨_, judgeChain_rejected (by omega)⟩

theorem judgedOnce_keepsFile {n : Nat} (judged : s.judgedOnce t) (keeps : s.keepsFile (n + 1)) :
    t.control.faults = s.control.faults ∧ t.keepsFile n := by
  rcases judged with ⟨j, rfl⟩ | ⟨j, p, f, -, -, -, -, rfl⟩
  · exact ⟨rfl, keepsFile_mono (Nat.le_succ n) keeps⟩
  · exact append_keepsFile f (by exact keeps)

theorem judgeChains_keepsFile (chains : List Chain) {n : Nat} (keeps : s.keepsFile (chains.length + n)) :
    let t := chains.foldl (fun u c => u.judgeChain c) s
    t.control.faults = s.control.faults ∧ t.keepsFile n := by
  induction chains generalizing s with
  | nil => exact ⟨rfl, by simpa using keeps⟩
  | cons c chains ih =>
    have more : s.keepsFile (chains.length + n + 1) := by
      rw [List.length_cons] at keeps
      exact keepsFile_mono (by omega) keeps
    obtain ⟨same, left⟩ := judgedOnce_keepsFile (judgeChain_judgedOnce c) more
    obtain ⟨same', left'⟩ := ih left
    exact ⟨same'.trans same, left'⟩

/-- Judging takes no more places of the transmit queue than it judges. -/
theorem judgedOnce_room {n : Nat} (judged : s.judgedOnce t) (room : s.hasRoomFor (n + 1)) : t.hasRoomFor n := by
  rcases judged with ⟨j, rfl⟩ | ⟨j, p, f, -, -, -, -, rfl⟩
  · exact Nat.le_trans (Nat.le_succ _) room
  · have one : State.hasRoomFor { s with judge := j, pair := p } 1 :=
      Nat.le_trans (Nat.add_le_add_left (Nat.le_add_left 1 n) _) room
    rw [append_fits f one]
    simp only [State.hasRoomFor, Link.queueing_txQueue, List.length_append, List.length_singleton] at room ⊢
    omega

theorem judgeChains_room (chains : List Chain) {n : Nat} (room : s.hasRoomFor (chains.length + n)) :
    (chains.foldl (fun u c => u.judgeChain c) s).hasRoomFor n := by
  induction chains generalizing s with
  | nil => simpa using room
  | cons c chains ih =>
    have more : s.hasRoomFor (chains.length + n + 1) := by
      rw [List.length_cons] at room
      exact Nat.le_trans (Nat.add_le_add_left (by omega) _) room
    exact ih (judgedOnce_room (judgeChain_judgedOnce c) more)

theorem judgeLoss_judgedOnce (e : Element) (startX endX : Int) : s.judgedOnce (s.judgeLoss e startX endX) := by
  by_cases long : s.station.backWallMin ≤ lossExtent startX endX
  · have judged : s.judgeLoss e startX endX = s.numberIndication e startX (.bwl (lossExtent startX endX)) := if_pos long
    rw [judged]
    exact numberIndication_judgedOnce ..
  · exact .inl ⟨s.judge, if_neg long⟩

/-- Judging changes no peer and no run mark, and stores no notice. -/
theorem judgedOnce_pair (judged : s.judgedOnce t) :
    t.pair.peers = s.pair.peers ∧ t.pair.runMark = s.pair.runMark ∧ t.pair.notices ⊆ s.pair.notices := by
  rcases judged with ⟨j, rfl⟩ | ⟨j, p, f, -, peers, mark, fewer, rfl⟩
  · exact ⟨rfl, rfl, List.Subset.refl _⟩
  · rw [(append_within _ f).pair rfl]
    exact ⟨peers, mark, fewer⟩

theorem judgeChains_peers (chains : List Chain) :
    (chains.foldl (fun u c => u.judgeChain c) s).pair.peers = s.pair.peers := by
  induction chains generalizing s with
  | nil => rfl
  | cons c chains ih => exact ih.trans (judgedOnce_pair (judgeChain_judgedOnce c)).1

/-! ## Disabling an element (R36, R72, R170) -/

/-- The part once an element has left the mask and its chains the table. -/
def State.cleared (e : Element) (s : State) : State :=
  ((s.tracker.chains.filter fun c => c.element == e).foldl (fun u c => u.judgeChain c) s).aside
    { s.tracker with chains := s.tracker.chains.filter fun c => c.element != e } s.cover
    (s.control.enableMask.set e false)
    (s.control.episodes.chainFull && (s.tracker.chains.filter fun c => c.element == e).isEmpty)

theorem disableElement_eq (e : Element) :
    s.disableElement e = ((s.cleared e).reportFault .pulser (BitVec.ofNat 4 e.val)).coverDisable e := by
  have closes := closeNext_repeated (s := s.unmask e) (fun c => c.element == e) s.tracker.chains.length
    (List.length_filter_le _ _)
  have judged := judgeChains_aside (s := s) s.tracker s.cover (s.control.enableMask.set e false)
    s.control.episodes.chainFull (s.tracker.chains.filter fun c => c.element == e)
  have cleared : (List.replicate s.tracker.chains.length (State.closeNext fun c => c.element == e)).foldl
      (fun u act => act u) (s.unmask e) = s.cleared e := by
    refine closes.trans ?_
    show State.aside _ _ _ _ ((s.tracker.chains.filter fun c => c.element == e).foldl (fun u c => u.judgeChain c)
      (s.aside s.tracker s.cover (s.control.enableMask.set e false) s.control.episodes.chainFull)) = _
    rw [judged]
    rfl
  rw [← cleared]
  unfold State.disableElement State.disableActs State.trackDisable
  rw [List.foldl_cons, List.foldl_append]
  rw [show List.replicate s.tracker.chains.length
      (((.tracker (.disable e) : Mark), State.closeNext fun c => c.element == e) : Act) =
    (List.replicate s.tracker.chains.length (State.closeNext fun c => c.element == e)).map fun f =>
      ((.tracker (.disable e) : Mark), f) from List.map_replicate.symm, List.foldl_map]
  rfl

theorem coverDisable_idle (e : Element) (idle : s.cover.accounting = .idle) : s.coverDisable e = s :=
  if_neg (by rw [idle]; decide)

/-- An element's share of an active account once it has been disabled. -/
def ElementCover.disabled (x : Int) (c : ElementCover) : ElementCover :=
  { c with
    causes := { c.causes with pulser := true }
    gapStart := if c.causes.nonempty then c.gapStart else some x
    run := none, backWall := .present }

theorem coverDisable_active (e : Element) (active : s.cover.accounting = .active) :
    s.coverDisable e =
      ({ s with cover := s.cover.withElement e ((s.cover.element.get e).disabled s.currentX) } : State).appendAll
        (if (s.cover.element.get e).causes.nonempty then [] else [s.oneNotice 4 s.currentX e (false, s.currentX)]) := by
  let c : ElementCover := { s.cover.element.get e with run := none, backWall := .present }
  have worked : s.coverDisable e = _ := (if_pos active).trans (requestAfter active e c .pulser true s.currentX)
  rw [gapChange_added] at worked
  have share : c.asked .pulser s.currentX (some true) = (s.cover.element.get e).disabled s.currentX :=
    congrArg (fun g => { c with causes := c.causes.put .pulser true, gapStart := g }) (gapStartAfter_added ..)
  rw [worked, share]
  cases (s.cover.element.get e).causes.nonempty <;> rfl

/-- The account once an element has been disabled; an idle account stands. -/
def Coverage.disabled (e : Element) (x : Int) (c : Coverage) : Coverage :=
  if c.accounting = .active then c.withElement e ((c.element.get e).disabled x) else c

/-- Disabling an element opens its gap in this account. -/
def Coverage.opensGap (e : Element) (c : Coverage) : Bool :=
  decide (c.accounting = .active) && !(c.element.get e).causes.nonempty

theorem coverDisable_eq (e : Element) :
    s.coverDisable e = ({ s with cover := s.cover.disabled e s.currentX } : State).appendAll
      (if s.cover.opensGap e then [s.oneNotice 4 s.currentX e (false, s.currentX)] else []) := by
  unfold Coverage.disabled Coverage.opensGap
  cases accounting : s.cover.accounting with
  | idle => exact coverDisable_idle e accounting
  | active =>
    rw [coverDisable_active e accounting]
    cases (s.cover.element.get e).causes.nonempty <;> rfl

theorem appendAll_keepsFile (fs : List Frame) {n : Nat} (keeps : s.keepsFile (fs.length + n)) :
    (s.appendAll fs).control.faults = s.control.faults := by
  induction fs generalizing s with
  | nil => rfl
  | cons f fs ih =>
    rw [List.length_cons, Nat.add_right_comm] at keeps
    obtain ⟨same, left⟩ := append_keepsFile f keeps
    exact (ih left).trans same

/-- Settles O50. -/
theorem disablingAnElementClosesItsChains : Obligations.DisablingAnElementClosesItsChains := by
  unfold Obligations.DisablingAnElementClosesItsChains
  intro e s run overflow records gone keeps t judged c x opens record
  have keeps' : s.keepsFile (gone.length + 2) := keeps
  have judging : Within Footprint.judging s judged := judgeChains_within gone
  obtain ⟨file, keeps_two⟩ := judgeChains_keepsFile gone keeps'
  let cleared := s.cleared e
  have cleared_overflow : cleared.control.faults.overflow = false := (congrArg FaultFile.overflow file).trans overflow
  have cleared_records : cleared.control.faults.records.length < 8 := by
    rw [show cleared.control.faults = s.control.faults from file]
    exact records
  have sameX : cleared.currentX = x := judging.currentX rfl rfl
  have run' : cleared.control.state.inRun = true := by
    rw [show cleared.control.state = s.control.state from judging.station_state rfl]
    exact run
  have recorded : cleared.faultRecord .pulser (BitVec.ofNat 4 e.val) = record := by
    unfold State.faultRecord FaultFile.nextIndex
    rw [if_pos run', sameX, show cleared.control.faults = s.control.faults from file,
      show cleared.control.runNumber = s.control.runNumber from judging.run_runNumber rfl]
    rfl
  let filed : State := { cleared with control := { cleared.control with faults := { s.control.faults with
    records := s.control.faults.records ++ [record] } } }
  let notice := faultNotice cleared.control.address record
  have reported : cleared.reportFault .pulser (BitVec.ofNat 4 e.val) = filed.append notice := by
    rw [reportFault_room cleared .pulser (BitVec.ofNat 4 e.val) cleared_overflow cleared_records, recorded]
    show State.append _ { cleared with control := { cleared.control with faults := { cleared.control.faults with
      records := cleared.control.faults.records ++ [record] } } } = _
    rw [show cleared.control.faults = s.control.faults from file]
  have address : cleared.control.address = s.control.address := judging.setup_address rfl
  let base : State := { filed with cover := s.cover.disabled e x }
  let gap := cleared.oneNotice 4 x e (false, x)
  have worked : t = base.appendAll (notice :: if opens then [gap] else []) := by
    have told := append_told (s := filed) notice
    have stands : (filed.append notice).cover = s.cover := told.within.cover rfl
    have there : (filed.append notice).currentX = x := (told.within.currentX rfl rfl).trans sameX
    have same_gap : (filed.append notice).oneNotice 4 x e (false, x) = gap := by
      unfold State.oneNotice State.gapNotice
      rw [told.within.setup_address rfl]
      rfl
    have aside : ({ filed.append notice with cover := s.cover.disabled e x } : State) = base.append notice := by
      refine Eq.trans ?_ (append_aside (s := filed) filed.tracker (s.cover.disabled e x) filed.control.enableMask
        filed.control.episodes.chainFull notice).symm
      rw [← told.within.tracker rfl, ← told.within.mask rfl, ← told.chainFull]
      rfl
    rw [appendAll_cons, ← aside]
    refine ((disableElement_eq e).trans (congrArg _ reported)).trans ((coverDisable_eq e).trans ?_)
    rw [stands, there, same_gap]
    rfl
  have told := appendAll_told (s := base) (notice :: if opens then [gap] else [])
  rw [← worked] at told
  have within := told.within
  have whole : Within Footprint.disabling s t := disableElement_within s e
  have short : (notice :: if opens then [gap] else []).length ≤ 2 := by
    rw [List.length_cons]
    split
    · exact Nat.le_refl 2
    · exact Nat.le_succ 1
  refine ⟨fun i => ?_, within.tracker rfl, within.judge rfl, within.pair rfl, ?_, told.chainFull, fun idle => ?_,
    fun active => ⟨?_, fun i other => ?_⟩, fun room => ⟨notice, gap, ?_, ?_, ?_⟩, whole.odo rfl, whole.sched rfl, whole.pulser rfl,
    whole.sameSetup rfl, whole.sameOutside ⟨rfl, rfl, rfl, rfl, rfl⟩⟩
  · rw [within.mask rfl]
    exact Eight.get_set ..
  · rw [worked]
    exact appendAll_keepsFile (n := 0) _ (keepsFile_mono short keeps_two)
  · refine (within.cover rfl).trans (if_neg ?_)
    rw [idle]
    decide
  · rw [within.cover rfl, show base.cover = s.cover.withElement e (c.disabled x) from if_pos active, withElement_get]
    rfl
  · rw [within.cover rfl, show base.cover = s.cover.withElement e (c.disabled x) from if_pos active,
      withElement_get_other _ other]
  · rw [← address]
    exact faultNotice_reports _ _
  · rw [← address]
    exact oneNotice_gapNotices ..
  · have fits : base.hasRoomFor (notice :: if opens then [gap] else []).length := by
      have two : judged.hasRoomFor 2 := judgeChains_room gone room
      exact Nat.le_trans (Nat.add_le_add_left short _) two
    rw [worked, appendAll_fits _ fits]
    rfl

end Sys2Proof.Machine
end

section
/-! SUPPORT. The run end; then the theorem that settles O24. -/

namespace Sys2Proof.Machine

variable {s t u : State}

/-! ## The chains of the run end (R70, R73) -/

theorem closeEach_eq (chains : List Chain) :
    chains.foldl (fun u c => (u.markChainFull false).judgeChain c) s =
      (chains.foldl (fun u c => u.judgeChain c) s).aside s.tracker s.cover s.control.enableMask
        (s.control.episodes.chainFull && chains.isEmpty) := by
  induction chains generalizing s with
  | nil =>
    rw [List.isEmpty_nil, Bool.and_true]
    rfl
  | cons c chains ih =>
    have first : (s.markChainFull false).judgeChain c =
        (s.judgeChain c).aside s.tracker s.cover s.control.enableMask false :=
      judgeChain_aside (s := s) s.tracker s.cover s.control.enableMask false c
    rw [List.foldl_cons, first, ih, judgeChains_aside, List.foldl_cons, List.isEmpty_cons, Bool.and_false]
    rfl

theorem trackRunEnd_eq : s.trackRunEnd =
    (s.tracker.chains.foldl (fun u c => u.judgeChain c) s).aside { s.tracker with chains := [] } s.cover
      s.control.enableMask (s.control.episodes.chainFull && s.tracker.chains.isEmpty) := by
  have all : s.tracker.chains.filter (fun _ => true) = s.tracker.chains := List.filter_eq_self.2 fun _ _ => rfl
  have none : s.tracker.chains.filter (fun _ => !true) = [] := List.filter_eq_nil_iff.2 fun _ _ => Bool.noConfusion
  unfold State.trackRunEnd State.closeChains
  dsimp only [State.modTracker]
  rw [all, none, closeEach_eq]
  have freed := judgeChains_aside (s := s) { s.tracker with chains := [] } s.cover s.control.enableMask
    s.control.episodes.chainFull s.tracker.chains
  exact (congrArg (State.aside { s.tracker with chains := [] } s.cover s.control.enableMask
    (s.control.episodes.chainFull && s.tracker.chains.isEmpty)) freed).trans rfl

/-! ## The open loss records of the run end (R113) -/

/-- The judge works one element's loss record as it stands in an account, closed at `x`; nothing when none is open. -/
def State.judgeRecord (account : Coverage) (x : Int) (s : State) (e : Element) : State :=
  match (account.element.get e).backWall with
  | .lost startX => s.judgeLoss e startX x
  | .present => s

/-- The account with the loss records of some elements closed. -/
def Coverage.walled (l : List Element) (c : Coverage) : Coverage :=
  { c with element := Eight.ofFn fun e =>
    if e ∈ l then { c.element.get e with backWall := .present } else c.element.get e }

theorem judgeRecord_aside (account : Coverage) (x : Int) (e : Element) (tracker : Tracker) (cover : Coverage)
    (mask : ElementSet) (chainFull : Bool) :
    (s.aside tracker cover mask chainFull).judgeRecord account x e =
      (s.judgeRecord account x e).aside tracker cover mask chainFull := by
  unfold State.judgeRecord
  split
  · exact judgeLoss_aside ..
  · rfl

theorem judgeRecords_aside (account : Coverage) (x : Int) (l : List Element) (tracker : Tracker) (cover : Coverage)
    (mask : ElementSet) (chainFull : Bool) :
    l.foldl (State.judgeRecord account x) (s.aside tracker cover mask chainFull) =
      (l.foldl (State.judgeRecord account x) s).aside tracker cover mask chainFull := by
  induction l generalizing s with
  | nil => rfl
  | cons e l ih => rw [List.foldl_cons, judgeRecord_aside, ih, List.foldl_cons]

theorem judgeRecord_within (account : Coverage) (x : Int) (e : Element) :
    Within Footprint.judging s (s.judgeRecord account x e) := by
  unfold State.judgeRecord
  split
  · exact judgeLoss_within ..
  · exact Within.refl _ s

/-- The monitor's closing of one element's record. -/
def State.closeLoss (s : State) (e : Element) : State :=
  match (s.cover.element.get e).backWall with
  | .lost startX => (s.modElementCover e fun c => { c with backWall := .present }).judgeLoss e startX s.currentX
  | .present => s

theorem closeLoss_eq (e : Element) :
    s.closeLoss e = (s.judgeRecord s.cover s.currentX e).aside s.tracker (s.cover.walled [e]) s.control.enableMask
      s.control.episodes.chainFull := by
  have walled : s.cover.walled [e] = s.cover.withElement e { s.cover.element.get e with backWall := .present } := by
    refine congrArg (fun v => { s.cover with element := v }) (Eight.ext_get fun i => ?_)
    by_cases here : i = e
    · simp [here]
    · simp [here, Eight.get_set_other _ here]
  unfold State.closeLoss State.judgeRecord
  cases wall : (s.cover.element.get e).backWall with
  | lost startX =>
    rw [walled]
    exact judgeLoss_aside (s := s) ..
  | present =>
    have same : s.cover.walled [e] = s.cover := by
      refine congrArg (fun v => { s.cover with element := v }) (Eight.ext_get fun i => ?_)
      by_cases here : i = e
      · subst here
        rw [Eight.get_ofFn, if_pos (List.mem_singleton_self _), ← wall]
      · simp [here]
    rw [same]
    rfl

theorem walled_walled (c : Coverage) (l l' : List Element) : (c.walled l).walled l' = c.walled (l ++ l') := by
  refine congrArg (fun v => { c with element := v }) (Eight.ext_get fun e => ?_)
  simp only [Coverage.walled, Eight.get_ofFn, List.mem_append]
  by_cases one : e ∈ l <;> by_cases other : e ∈ l' <;> simp [one, other]

theorem foldl_closeLoss (l : List Element) (distinct : l.Nodup) :
    l.foldl State.closeLoss s = (l.foldl (State.judgeRecord s.cover s.currentX) s).aside s.tracker (s.cover.walled l)
      s.control.enableMask s.control.episodes.chainFull := by
  induction l generalizing s with
  | nil =>
    have same : s.cover.walled [] = s.cover :=
      congrArg (fun v => { s.cover with element := v }) (Eight.ext_get fun e => by simp)
    rw [same]
    rfl
  | cons e l ih =>
    obtain ⟨absent, distinct'⟩ := List.nodup_cons.1 distinct
    have first := closeLoss_eq (s := s) e
    have sameX : (s.closeLoss e).currentX = s.currentX := by
      rw [first]
      exact (judgeRecord_within ..).currentX rfl rfl
    have cover : (s.closeLoss e).cover = s.cover.walled [e] := by rw [first]; rfl
    have reads (v : State) : l.foldl (State.judgeRecord (s.cover.walled [e]) s.currentX) v =
        l.foldl (State.judgeRecord s.cover s.currentX) v := by
      refine List.foldl_ext _ _ _ fun u i mem => ?_
      have other : i ≠ e := fun same => absent (same ▸ mem)
      unfold State.judgeRecord
      rw [show (s.cover.walled [e]).element.get i = s.cover.element.get i by simp [Coverage.walled, other]]
    rw [List.foldl_cons, ih distinct', cover, sameX, reads, walled_walled, first, judgeRecords_aside, List.foldl_cons]
    rfl

theorem closeLosses_eq : s.closeLosses =
    (elements.foldl (State.judgeRecord s.cover s.currentX) s).aside s.tracker (s.cover.walled elements)
      s.control.enableMask s.control.episodes.chainFull :=
  foldl_closeLoss elements (by decide)

/-! ## The gaps and the partial span of the run end (R105, R107, R113) -/

/-- The account with every cause set empty and every gap closed. -/
def Coverage.gapless (c : Coverage) : Coverage :=
  { c with element := c.element.map fun e =>
    if e.causes.nonempty then { e with causes := Causes.empty, gapStart := none } else e }

/-- The closings of the run end. -/
def Coverage.runEndChange (x : Int) (c : Coverage) : GapChanges := fun e =>
  if (c.element.get e).causes.nonempty then some (true, (c.element.get e).gapStart.getD x) else none

theorem closeGaps_eq : s.closeGaps =
    ({ s with cover := s.cover.gapless } : State).appendAll (s.noticesOf 5 s.currentX (s.cover.runEndChange s.currentX)) := by
  have changes : s.runEndChanges = elements.filterMap (noteChange 5 s.currentX (s.cover.runEndChange s.currentX)) := by
    refine List.filterMap_congr fun e _ => ?_
    unfold noteChange Coverage.runEndChange
    dsimp only
    cases (s.cover.element.get e).causes.nonempty <;> rfl
  unfold State.closeGaps State.queueGaps
  rw [changes]
  rfl

/-- The SPAN notice of the travel covered since the last span end. -/
def State.partialSpan (s : State) : List Frame :=
  if 0 < s.cover.lastTravel - s.cover.spanStart then [s.spanNotice (s.cover.lastTravel - s.cover.spanStart)] else []

theorem reportPartialSpan_eq : s.reportPartialSpan = s.appendAll s.partialSpan := by
  unfold State.reportPartialSpan State.partialSpan
  dsimp only
  split <;> rfl

/-! ## The run end (R113, R115, R168) -/

/-- The part once the run end has judged its chains and then its loss records. -/
def State.judgedAtEnd (s : State) : State :=
  elements.foldl (State.judgeRecord s.cover s.currentX) (s.tracker.chains.foldl (fun u c => u.judgeChain c) s)

/-- The part once the run end has judged its chains and loss records and closed its gaps, but for their notices. -/
def State.runEnding (s : State) : State :=
  s.judgedAtEnd.aside { s.tracker with chains := [] } (s.cover.walled elements).gapless
    s.control.enableMask (s.control.episodes.chainFull && s.tracker.chains.isEmpty)

theorem aside_within (tracker : Tracker) (cover : Coverage) (chainFull : Bool) :
    Within { tracker := true, cover := true, faults := true } s
      (s.aside tracker cover s.control.enableMask chainFull) := by
  constructor <;> simp [State.aside]

theorem judgeRecords_within (account : Coverage) (x : Int) (l : List Element) :
    Within Footprint.judging s (l.foldl (State.judgeRecord account x) s) :=
  Within.foldl _ (fun u e => judgeRecord_within (s := u) account x e) _ _

theorem judgedAtEnd_peers : s.judgedAtEnd.pair.peers = s.pair.peers := by
  have records (l : List Element) (v : State) :
      (l.foldl (State.judgeRecord s.cover s.currentX) v).pair.peers = v.pair.peers := by
    induction l generalizing v with
    | nil => rfl
    | cons e l ih =>
      refine (ih _).trans ?_
      unfold State.judgeRecord
      split
      · exact (judgedOnce_pair (judgeLoss_judgedOnce ..)).1
      · rfl
  exact (records _ _).trans (judgeChains_peers _)

theorem runEnding_within : Within Footprint.results s s.runEnding := by
  have judging : Within Footprint.judging s s.judgedAtEnd := (judgeChains_within _).trans (judgeRecords_within ..)
  have ending : s.runEnding = s.judgedAtEnd.aside { s.tracker with chains := [] } (s.cover.walled elements).gapless
      s.judgedAtEnd.control.enableMask (s.control.episodes.chainFull && s.tracker.chains.isEmpty) := by
    rw [judging.mask rfl]
    rfl
  rw [ending]
  exact (judging.mono rfl).trans ((aside_within ..).mono rfl)

theorem walled_get (c : Coverage) (e : Element) :
    (c.walled elements).element.get e = { c.element.get e with backWall := .present } := by
  rw [Coverage.walled, Eight.get_ofFn, if_pos (mem_elements e)]

theorem gapless_get (c : Coverage) (e : Element) :
    c.gapless.element.get e =
      if (c.element.get e).causes.nonempty then { c.element.get e with causes := Causes.empty, gapStart := none }
      else c.element.get e := Eight.get_map ..

theorem runEndChange_walled (x : Int) (c : Coverage) : (c.walled elements).runEndChange x = c.runEndChange x := by
  funext e
  unfold Coverage.runEndChange
  rw [walled_get]

/-- The GAP notices and the SPAN notice of the run end. -/
theorem coverRunEnd_eq :
    ∃ span, span.showsSpan s (s.cover.lastTravel - s.cover.spanStart) (fun e => (s.cover.element.get e).gapTravel) ∧
      s.trackRunEnd.coverRunEnd =
        (s.runEnding.appendAll (s.noticesOf 5 s.currentX (s.cover.runEndChange s.currentX) ++
          if 0 < s.cover.lastTravel - s.cover.spanStart then [span] else [])).modCover fun c =>
            { c with accounting := .idle } := by
  let x := s.currentX
  let chained := s.tracker.chains.foldl (fun u c => u.judgeChain c) s
  have closed : s.trackRunEnd = chained.aside { s.tracker with chains := [] } s.cover s.control.enableMask
    (s.control.episodes.chainFull && s.tracker.chains.isEmpty) := trackRunEnd_eq
  let gaps := s.noticesOf 5 x (s.cover.runEndChange x)
  have gapped : s.trackRunEnd.closeLosses.closeGaps = s.runEnding.appendAll gaps := by
    have losses : s.trackRunEnd.closeLosses =
        s.judgedAtEnd.aside { s.tracker with chains := [] }
          (s.cover.walled elements) s.control.enableMask
          (s.control.episodes.chainFull && s.tracker.chains.isEmpty) := by
      have there : (chained.aside { s.tracker with chains := [] } s.cover s.control.enableMask
          (s.control.episodes.chainFull && s.tracker.chains.isEmpty)).currentX = x :=
        (judgeChains_within s.tracker.chains).currentX rfl rfl
      rw [closed, closeLosses_eq, there]
      exact (congrArg (State.aside _ _ _ _) (judgeRecords_aside ..)).trans rfl
    have there : s.runEnding.currentX = x := runEnding_within.currentX rfl rfl
    have same (v : State) (address : v.control.address = s.control.address) (change : GapChanges) :
        v.noticesOf 5 x change = s.noticesOf 5 x change := by
      unfold State.noticesOf State.gapNotice
      rw [address]
    rw [losses, closeGaps_eq]
    show State.appendAll (State.noticesOf _ 5 s.runEnding.currentX
      ((s.cover.walled elements).runEndChange s.runEnding.currentX)) s.runEnding = _
    rw [there, runEndChange_walled]
    exact congrArg (fun frames => s.runEnding.appendAll frames) (same _ ((runEnding_within (s := s)).setup_address rfl) _)
  let told := s.runEnding.appendAll gaps
  have within : Within Footprint.results s told := runEnding_within.trans ((appendAll_within _ _).mono rfl)
  have cover : told.cover = (s.cover.walled elements).gapless := (appendAll_within _ _).cover rfl
  refine ⟨told.spanNotice (s.cover.lastTravel - s.cover.spanStart), ?_, ?_⟩
  · have shows := spanNotice_showsSpan told (s.cover.lastTravel - s.cover.spanStart)
    have travel (e : Element) : (told.cover.element.get e).gapTravel = (s.cover.element.get e).gapTravel := by
      rw [cover, gapless_get, walled_get]
      split <;> rfl
    unfold Frame.showsSpan at shows ⊢
    simp only [travel] at shows
    rw [within.setup_address rfl, within.currentX rfl rfl, cover] at shows
    exact shows
  · rw [State.coverRunEnd, gapped, reportPartialSpan_eq, appendAll_append]
    have spans : told.partialSpan = if 0 < s.cover.lastTravel - s.cover.spanStart then
        [told.spanNotice (s.cover.lastTravel - s.cover.spanStart)] else [] := by
      rw [State.partialSpan, cover]
      rfl
    rw [← spans]

/-- Settles O24. -/
theorem runEndClosesTheRun : Obligations.RunEndClosesTheRun := by
  unfold Obligations.RunEndClosesTheRun
  intro s
  refine ⟨fun pending off => ?_, fun early => congrArg Host.Outcome.next (if_neg ?_)⟩
  · intro chained judged covered
    have judged_eq : judged = s.judgedAtEnd := rfl
    clear_value judged
    subst judged_eq
    have due : s.runEndDue = true := by simp [State.runEndDue, pending, off]
    obtain ⟨span, shows, ended⟩ := coverRunEnd_eq (s := s)
    let gaps := s.noticesOf 5 s.currentX (s.cover.runEndChange s.currentX)
    let spans := if 0 < covered then [span] else []
    have told := appendAll_told (s := s.runEnding) (gaps ++ spans)
    obtain ⟨y, y_eq⟩ : ∃ y, y = s.runEnding.appendAll (gaps ++ spans) := ⟨_, rfl⟩
    rw [← y_eq] at told
    have t_eq : s.applyRunEnd = ((y.modCover fun c => { c with accounting := .idle }).pairRunEnd).modControl fun c =>
        { c with runEndPending := false } := by
      rw [y_eq]
      exact congrArg (fun v => State.modControl (fun c => { c with runEndPending := false }) (State.pairRunEnd v)) ended
    have within : Within Footprint.results s y := runEnding_within.trans (told.within.mono rfl)
    have cover : y.cover = (s.cover.walled elements).gapless := told.within.cover rfl
    refine ⟨s.applyRunEnd, congrArg Host.Outcome.next (if_pos due), ?_⟩
    rw [t_eq]
    refine ⟨told.within.tracker rfl, told.within.judge rfl, rfl, fun e => ?_, told.chainFull, fun room => ?_, rfl, rfl, rfl,
      ?_, rfl, within.station_state rfl, within.run_runNumber rfl, within.mask rfl, within.odo rfl, within.sched rfl,
      within.pulser rfl, within.sameSetup rfl, within.sameOutside ⟨rfl, rfl, rfl, rfl, rfl⟩⟩
    · show (y.cover.element.get e).causes.nonempty = false ∧ (y.cover.element.get e).backWall = .present ∧
        (_ → (y.cover.element.get e).gapStart = none)
      rw [cover, gapless_get, walled_get]
      cases some : (s.cover.element.get e).causes.nonempty with
      | true => exact ⟨rfl, rfl, fun _ => rfl⟩
      | false => exact ⟨some, rfl, nofun⟩
    · refine ⟨gaps, span, noticesOf_gapNotices .., shows, ?_⟩
      have fits : s.runEnding.hasRoomFor (gaps ++ spans).length := by
        have few : gaps.length ≤ 8 := length_noticesOf_le ..
        have one : spans.length ≤ 1 := by
          show (if 0 < covered then [span] else []).length ≤ 1
          split
          · exact Nat.le_refl 1
          · exact Nat.zero_le 1
        refine Nat.le_trans (Nat.add_le_add_left ?_ _) room
        rw [List.length_append]
        omega
      rw [appendAll_fits _ fits] at y_eq
      rw [y_eq]
      rfl
    · show y.pair.peers = s.pair.peers
      rw [told.within.pair rfl]
      exact judgedAtEnd_peers
  · rcases early with clear | busy
    · simp [State.runEndDue, clear]
    · simp [State.runEndDue, busy]

end Sys2Proof.Machine
end

section
/-! SUPPORT. The scheduler at an entry to RUNNING, the lift at the coverage monitor, and the run start; then the theorem
that settles O21. -/

namespace Sys2Proof.Machine

variable {s t u : State}

/-! ## The scheduler and the high voltage at changes of station state (R28, R30, R31) -/

/-- The part once the scheduler has been told of an entry to RUNNING. -/
theorem schedRunning_eq (s : State) : s.schedRunning = { s with
    sched := { s.sched with state :=
      if s.sched.state = .off then if s.pulser.hv = .ready then .free else .settling else s.sched.state }
    pulser := { s.pulser with hv :=
      if s.sched.state = .off ∧ s.pulser.hv = .off then .settling 0 else s.pulser.hv } } := by
  obtain ⟨odo, ⟨state, element⟩, ⟨hv, fires⟩, tracker, judge, cover, pair, link, control, loader, hold, pins, free, pending⟩ := s
  cases state with
  | off => cases hv <;> rfl
  | _ => rfl

/-- The part once the scheduler has been told of an entry to LIFTED. -/
theorem schedLifted_eq (s : State) : s.schedLifted = { s with
    sched := { s.sched with state :=
      if s.sched.state = .free ∨ s.sched.state = .settling then .off else s.sched.state } } := by
  obtain ⟨odo, ⟨state, element⟩, pulser, tracker, judge, cover, pair, link, control, loader, hold, pins, free, pending⟩ := s
  cases state <;> rfl

/-! ## Entry to LIFTED (R31, R111, R165) -/

/-- The part once LIFTED has been entered, but for its notices. -/
def State.lifting (s : State) : State := { s with
  control := { s.control with state := .lifted, liftFromStill := s.control.state == .still }
  sched := { s.sched with state :=
    if s.sched.state = .free ∨ s.sched.state = .settling then .off else s.sched.state }
  cover := s.cover.abandoned .lifted s.currentX s.control.enableMask }

theorem enterLifted_eq (s : State) :
    ∃ gaps f, s.opensGaps 1 gaps ∧ gaps.length ≤ 1 ∧ f.showsState .lifted ∧
      s.enterLifted = s.lifting.appendAll (gaps ++ [f]) := by
  let before : State :=
    (s.modControl fun c => { c with state := .lifted, liftFromStill := c.state == .still }).schedLifted
  have before_eq : before = { s.lifting with cover := s.cover } := schedLifted_eq _
  obtain ⟨gaps, opens, short, covered⟩ := takeCause_notices (s := before) .lifted
  have told := appendAll_told (s := s.lifting) gaps
  have lifted : before.coverLifted = s.lifting.appendAll gaps := by
    refine covered.trans ?_
    rw [before_eq]
    rfl
  refine ⟨gaps, (s.lifting.appendAll gaps).statusNotice 0, ?_, short, ?_, ?_⟩
  · rw [before_eq] at opens
    exact opens
  · have shows := statusNotice_showsState (s.lifting.appendAll gaps)
    rw [told.within.station_state rfl] at shows
    exact shows
  · rw [appendAll_append]
    exact congrArg (State.queueStatus 0) lifted

/-! ## The run start (R16, R19, R59, R80, R98, R115, R167) -/

/-- The part once a RUN has been taken, but for its notices. -/
def State.running (number : BitVec 16) (start : Int) (s : State) : State := { s with
  odo := { s.odo with
    pos := ⟨start, 0⟩, travel := 0, direction := .forward, extreme := ⟨start, 0⟩, sinceEdge := 0, stillMark := false }
  sched := { s.sched with element := Eight.ofFn fun e =>
    { nextDue := if s.control.configuredMask.get e then (s.elem e).phase else (s.sched.element.get e).nextDue
      skipCount := 0, onGrid := 0, undersampled := false } }
  pulser := { s.pulser with badFires := Eight.all 0 }
  tracker := { s.tracker with chains := [], nextNumber := 1, inFlight := none }
  judge := { s.judge with nextSeq := 1 }
  cover :=
    { accounting := .active, element := Eight.all ElementCover.fresh, spanIndex := 0, spanStart := 0, lastTravel := 0,
      runMask := s.control.configuredMask }
  pair := { s.pair with
    runMark := true, notices := [], own := [], peers := s.pair.peers.map fun q => { q with lastHeard := 0 } }
  control := { s.control with
    state := .running, runNumber := number, runEndPending := false, enableMask := s.control.configuredMask
    episodes := { s.control.episodes with chainFull := false } } }

theorem applyRunStart_running (number : BitVec 16) (start : Int) (s : State) :
    (s.applyRunStart number start).setStation .running = s.running number start := rfl

/-- A RUN taken with the scheduler and the high voltage OFF: the notices of the start, and the high voltage settling. -/
theorem acceptRun_started {number : BitVec 16} {start : Int} (off : s.sched.state = .off) (hv : s.pulser.hv = .off)
    (room : s.hasRoomFor 2) :
    ∃ ann status, ann.announces (s.running number start).control false ∧ status.showsState .running ∧
      ((((s.applyRunStart number start).setStation .running).queueAnnounce false).queueStatus 0).schedRunning =
        { s.running number start with
          sched := { (s.running number start).sched with state := .settling }
          pulser := { (s.running number start).pulser with hv := .settling 0 }
          link := s.link.queueing [ann, status] } := by
  let r := s.running number start
  have one : r.hasRoomFor 1 := Nat.le_trans (Nat.le_succ _) room
  let announced : State := { r with link := r.link.queueing [r.announceNotice false] }
  have another : announced.hasRoomFor 1 := by
    simp only [State.hasRoomFor] at room
    simp only [State.hasRoomFor, announced, Link.queueing_txQueue, List.length_append, List.length_singleton]
    exact room
  refine ⟨r.announceNotice false, announced.statusNotice 0, announceNotice_announces r false,
    statusNotice_showsState announced, ?_⟩
  rw [applyRunStart_running, queueAnnounce_fits _ one, queueStatus_fits _ another, schedRunning_eq]
  have off' : announced.sched.state = .off := off
  have hv' : announced.pulser.hv = .off := hv
  simp only [off', hv', if_true]
  rw [show announced.link.queueing [announced.statusNotice 0] = s.link.queueing [r.announceNotice false,
    announced.statusNotice 0] from Link.queueing_queueing ..]
  rfl

/-- Settles O21. -/
theorem acceptedRunStartsARun : Obligations.AcceptedRunStartsARun := by
  unfold Obligations.AcceptedRunStartsARun
  intro src dest number start f rest s w number_ne state off hv room u begun account x
  have worked : exec (.run src dest number start) s = .next (u.workRun number start) :=
    congrArg Host.Outcome.next (w.dispatch _)
  have accepted : u.workRun number start = u.acceptRun number start.toInt := by
    have state' : u.control.state = s.control.state := takeHead_state s f.source
    rcases state with h | h <;> rw [State.workRun, if_neg number_ne, state', h]
  have off' : u.sched.state = .off := by rw [takeHead_sched s f.source]; exact off
  have hv' : u.pulser.hv = .off := by rw [takeHead_pulser s f.source]; exact hv
  have two : u.hasRoomFor 2 := (takeHead_hasRoomFor s f.source 2).2 (Nat.le_trans (Nat.add_le_add_left (by
    split <;> decide) _) room)
  obtain ⟨ann, status, announces, shows, started⟩ := acceptRun_started (number := number) (start := start.toInt) off' hv' two
  have mask : u.control.configuredMask = s.control.configuredMask := takeHead_configuredMask s f.source
  have odo : u.odo = s.odo := takeHead_odo s f.source
  have elem (e : Element) : u.elem e = s.elem e := takeHead_elem s f.source e
  have sched : u.sched = s.sched := takeHead_sched s f.source
  have begun_eq : (u.running number start.toInt).control = begun := by
    show Control.mk .. = Control.mk ..
    rw [mask]
  have account_eq : (u.running number start.toInt).cover = account :=
    congrArg (fun m => { account with runMask := m }) mask
  have fires (e : Element) :
      let part := (u.running number start.toInt).sched.element.get e
      part.skipCount = 0 ∧ part.onGrid = 0 ∧ part.undersampled = false ∧
        (u.running number start.toInt).pulser.badFires.get e = 0 ∧
        part.nextDue = if s.control.configuredMask.get e then (s.elem e).phase else (s.sched.element.get e).nextDue := by
    simp only [State.running, Eight.get_ofFn, Eight.get_all, mask, elem, sched, and_self]
  let started_state : State := { u.running number start.toInt with
    sched := { (u.running number start.toInt).sched with state := .settling }
    pulser := { (u.running number start.toInt).pulser with hv := .settling 0 }
    link := u.link.queueing [ann, status] }
  have odo' : started_state.odo = { s.odo with
      pos := ⟨start.toInt, 0⟩, travel := 0, direction := .forward, extreme := ⟨start.toInt, 0⟩, sinceEdge := 0,
      stillMark := false } := by
    rw [← odo]
    rfl
  have tracker : started_state.tracker = { s.tracker with chains := [], nextNumber := 1, inFlight := none } := by
    rw [← takeHead_tracker s f.source]
    rfl
  have judge : started_state.judge = { s.judge with nextSeq := 1 } := by
    rw [← takeHead_judge s f.source]
    rfl
  have pair : started_state.pair = { s.pair with
      runMark := true, notices := [], own := [], peers := u.pair.peers.map fun q => { q with lastHeard := 0 } } := by
    show Pairing.mk .. = Pairing.mk ..
    rw [show u.pair.lost = s.pair.lost from takeHead_lost s f.source]
  have lift : started_state.odo.lift = s.odo.lift := (congrArg Odometer.lift odo :)
  cases raised : s.odo.lift with
  | lowered =>
    have done : u.acceptRun number start.toInt = started_state := by
      rw [State.acceptRun, started]
      show (match started_state.odo.lift with | .raised => started_state.enterLifted | .lowered => started_state) = _
      rw [lift, raised]
    refine ⟨started_state, ann, status, ?_, ?_, shows, odo', rfl, fires, tracker, judge, pair,
      fun _ => ⟨begun_eq, rfl, account_eq, rfl⟩, nofun, takeHead_pins s f.source, takeHead_loader s f.source,
      takeHead_hold s f.source, takeHead_pending s f.source⟩
    · rw [worked, accepted, done]
    · rw [← begun_eq]
      exact announces
  | raised =>
    obtain ⟨gaps, second, opens, short, lifted_shows, enters⟩ := enterLifted_eq started_state
    have done : u.acceptRun number start.toInt = started_state.lifting.appendAll (gaps ++ [second]) := by
      rw [State.acceptRun, started, ← enters]
      show (match started_state.odo.lift with | .raised => started_state.enterLifted | .lowered => started_state) = _
      rw [lift, raised]
    have sameX : started_state.currentX = x := by
      have micros : ((0 : Nat) : Int) + 0 + 500 = 500 := rfl
      show satPosition (start.toInt + u.station.mountOffset + (((0 : Nat) : Int) + 0 + 500) / 1000) = _
      rw [micros, show u.station = s.station from takeHead_station s f.source]
      exact congrArg satPosition (Int.add_zero _)
    have fits : started_state.lifting.hasRoomFor (gaps ++ [second]).length := by
      have four : u.hasRoomFor 4 := (takeHead_hasRoomFor s f.source 4).2 (by simpa [raised] using room)
      have queue : started_state.lifting.link.txQueue = u.link.txQueue ++ [ann, status] := rfl
      simp only [State.hasRoomFor, queue, List.length_append, List.length_cons, List.length_nil] at four ⊢
      omega
    have account_raised : started_state.lifting.cover = { account with
      element := Eight.ofFn fun e =>
        if s.control.configuredMask.get e then
          { ElementCover.fresh with causes := ⟨false, true, false, false, false⟩, gapStart := some x }
        else ElementCover.fresh } := by
      have active : started_state.cover.accounting = .active := rfl
      have keeps : started_state.lifting.cover = { account with element := started_state.lifting.cover.element } := by
        rw [← account_eq]
        show started_state.cover.abandoned .lifted started_state.currentX started_state.control.enableMask = _
        rw [State.lifting, Coverage.abandoned, if_pos active]
        rfl
      rw [keeps]
      refine congrArg (fun v => { account with element := v }) (Eight.ext_get fun e => ?_)
      rw [show started_state.lifting.cover = started_state.cover.abandoned .lifted started_state.currentX
        started_state.control.enableMask from rfl, abandoned_get active, sameX]
      have fresh : started_state.cover.element.get e = ElementCover.fresh := Eight.get_all ..
      rw [fresh, Eight.get_ofFn]
      rw [show started_state.control.enableMask = s.control.configuredMask from mask]
      rfl
    refine ⟨{ started_state.lifting with link := started_state.lifting.link.queueing (gaps ++ [second]) }, ann, status,
      ?_, ?_, shows, odo', rfl, fires, tracker, judge, pair, nofun,
      fun _ => ⟨?_, rfl, account_raised, gaps, second, ?_, lifted_shows, ?_⟩, takeHead_pins s f.source,
      takeHead_loader s f.source, takeHead_hold s f.source, takeHead_pending s f.source⟩
    · rw [worked, accepted, done, appendAll_fits _ fits]
    · rw [← begun_eq]
      exact announces
    · rw [← begun_eq]
      rfl
    · exact (Link.queueing_queueing ..).trans (congrArg u.link.queueing (List.append_assoc ..).symm)
    · have change : (fun e : Element =>
          if started_state.cover.accounting = .active ∧ started_state.control.enableMask.get e = true ∧
              (started_state.cover.element.get e).causes.nonempty = false then some (false, started_state.currentX)
          else none) = fun e => if s.control.configuredMask.get e then some (false, x) else none := by
        funext e
        have fresh : (started_state.cover.element.get e).causes.nonempty = false :=
          congrArg (fun c => c.causes.nonempty) (Eight.get_all ElementCover.fresh e)
        have on : started_state.control.enableMask = s.control.configuredMask := mask
        rw [sameX, on]
        exact if_congr ⟨fun ⟨_, enabled, _⟩ => enabled, fun enabled => ⟨rfl, enabled, fresh⟩⟩ rfl rfl
      have told := opens
      unfold State.opensGaps at told
      rw [change, sameX, show started_state.control.address = s.control.address from takeHead_address s f.source] at told
      exact told

end Sys2Proof.Machine
end

section
/-! SUPPORT. The acts of a fire and of the travel advance of its edge, named, so that an order of them is a list; what
every order leaves of the chain table. -/

namespace Sys2Proof.Machine

variable {s t u b : State}

/-! ## Orders of several lanes -/

/-- A list that takes its items from lanes, each lane's in its own order. -/
inductive Interleaves {α : Type} : List (List α) → List α → Prop where
  | done {lanes : List (List α)} (empty : lanes.flatten = []) : Interleaves lanes []
  | take {lanes : List (List α)} {i : Nat} {a : α} {rest out : List α} (lane : lanes[i]? = some (a :: rest))
      (others : Interleaves (lanes.set i rest) out) : Interleaves lanes (a :: out)

section
variable {α : Type} {lanes : List (List α)} {out : List α}

theorem Interleaves.perm (h : Interleaves lanes out) : out.Perm lanes.flatten := by
  induction h with
  | done empty => rw [empty]
  | take lane _ ih => exact (ih.cons _).trans (flatten_set_perm _ _ lane).symm

/-- What a lane alone holds of a kind keeps that lane's order. -/
theorem Interleaves.filter (p : α → Bool) (i : Nat) (h : Interleaves lanes out)
    (alone : ∀ j l, j ≠ i → lanes[j]? = some l → ∀ a ∈ l, p a = false) :
    out.filter p = (lanes.getD i []).filter p := by
  induction h with
  | @done lanes empty =>
    have nil : lanes.getD i [] = [] := by
      cases at_i : lanes[i]? with
      | none => simp [List.getD, at_i]
      | some l => simpa [List.getD, at_i] using List.flatten_eq_nil_iff.1 empty l (List.mem_of_getElem? at_i)
    rw [nil]
  | @take lanes k a rest out lane others ih =>
    have inside : k < lanes.length := (List.getElem?_eq_some_iff.1 lane).1
    have alone' : ∀ j l, j ≠ i → (lanes.set k rest)[j]? = some l → ∀ a ∈ l, p a = false := by
      intro j l other at_j
      by_cases same : j = k
      · subst same
        rw [List.getElem?_set_self inside] at at_j
        intro c mem
        exact alone j _ other lane c (List.mem_cons_of_mem _ (Option.some.inj at_j ▸ mem))
      · rw [List.getElem?_set_ne (Ne.symm same)] at at_j
        exact alone j l other at_j
    rw [List.filter_cons, ih alone']
    by_cases own : k = i
    · subst own
      have before : lanes.getD k [] = a :: rest := by rw [List.getD, lane]; rfl
      have after : (lanes.set k rest).getD k [] = rest := by rw [List.getD, List.getElem?_set_self inside]; rfl
      rw [before, after, List.filter_cons]
    · have skipped : p a = false := alone k _ own lane a (List.mem_cons_self ..)
      simp [skipped, List.getD, List.getElem?_set_ne own]

theorem Interleaves.sublist (h : Interleaves lanes out) {i : Nat} {l : List α} (lane : lanes[i]? = some l) :
    l.Sublist out := by
  induction h generalizing l with
  | done empty =>
    rw [List.flatten_eq_nil_iff.1 empty l (List.mem_of_getElem? lane)]
  | @take lanes k a rest out at_k others ih =>
    have inside : k < lanes.length := (List.getElem?_eq_some_iff.1 at_k).1
    by_cases own : k = i
    · subst own
      rw [Option.some.inj (lane.symm.trans at_k)]
      exact (ih (List.getElem?_set_self inside)).cons_cons a
    · exact (ih (by rw [List.getElem?_set_ne own]; exact lane)).cons a
end

/-- A merge of lanes of acts is an order of what the acts are named by. -/
theorem interleaves_of_merges {α : Type} (run : α → State → State) {busy : List Mark} {lanes : List (List Act)}
    {acts : List (State → State)} (h : Merges busy lanes acts) (named : List (List α))
    (same : lanes.map (List.map Prod.snd) = named.map (List.map run)) :
    ∃ out, Interleaves named out ∧ acts = out.map run := by
  induction h generalizing named with
  | @done busy lanes empty =>
    refine ⟨[], .done (List.flatten_eq_nil_iff.2 fun l mem => ?_), rfl⟩
    have image : l.map run ∈ lanes.map (List.map Prod.snd) := by
      rw [same]
      exact List.mem_map_of_mem mem
    obtain ⟨l', mem', eq⟩ := List.mem_map.1 image
    rw [List.flatten_eq_nil_iff.1 empty l' mem'] at eq
    exact List.map_eq_nil_iff.1 eq.symm
  | @take busy lanes i mark a rest out lane able others ih =>
    have at_i : (named.map (List.map run))[i]? = some (a :: rest.map Prod.snd) := by
      rw [← same, List.getElem?_map, lane]
      rfl
    rw [List.getElem?_map] at at_i
    obtain ⟨l, name, image⟩ := Option.map_eq_some_iff.1 at_i
    obtain ⟨d, l', rfl, rfl, tail⟩ := List.map_eq_cons_iff.1 image
    have same' : (lanes.set i rest).map (List.map Prod.snd) = (named.set i l').map (List.map run) := by
      rw [List.map_set, List.map_set, same, tail]
    obtain ⟨out', order, rfl⟩ := ih (named.set i l') same'
    exact ⟨d :: out', .take name order, rfl⟩

/-! ## The acts of one event by name -/

/-- An event at an edge: the travel it leaves, whether it reverses, the elements fired, and what they ask of the cause
UNDERSAMPLED. -/
structure Event where
  travel : Nat
  reversal : Bool
  set : ElementSet
  x : Int
  ask : Element → Option Bool

/-- One act of a fire or of a travel advance. -/
inductive Deed where
  | tellStatus
  | closeAtAdvance
  | coverAdvance
  | pairAdvance
  | closeAtFire
  | takeFlight
  | askCauses
  | tellGap (g : GapGroup)
  | leaveMask (e : Element)
  | closeDisabled (e : Element)
  | report (e : Element)
  | coverDisable (e : Element)

def Deed.act (v : Event) : Deed → State → State
  | .tellStatus => State.queueStatus 0
  | .closeAtAdvance => State.closeAtAdvance v.travel v.reversal
  | .coverAdvance => State.coverAdvance v.travel
  | .pairAdvance => State.pairAdvance v.travel
  | .closeAtFire => State.closeOverdue v.set v.travel
  | .takeFlight => State.setInFlight (some v.set)
  | .askCauses => State.applyRequests (causeRequests .undersampled v.x v.ask)
  | .tellGap g => fun t => t.append (t.gapNotice g)
  | .leaveMask e => State.unmask e
  | .closeDisabled e => State.closeNext fun c => c.element == e
  | .report e => State.reportFault .pulser (BitVec.ofNat 4 e.val)
  | .coverDisable e => State.coverDisable e

/-- The part after the acts of a list, one after another. -/
def runDeeds (v : Event) (ds : List Deed) (s : State) : State := ds.foldl (fun t d => d.act v t) s

@[simp] theorem runDeeds_nil (v : Event) : runDeeds v [] s = s := rfl
@[simp] theorem runDeeds_cons (v : Event) (d : Deed) (ds : List Deed) :
    runDeeds v (d :: ds) s = runDeeds v ds (d.act v s) := rfl

theorem runDeeds_append (v : Event) (ds es : List Deed) : runDeeds v (ds ++ es) s = runDeeds v es (runDeeds v ds s) :=
  List.foldl_append

section
variable (v : Event)

theorem deed_within (d : Deed) : Within Footprint.disabling s (d.act v s) := by
  cases d with
  | tellStatus => exact (queueStatus_within ..).mono rfl
  | closeAtAdvance => exact (closeNext_within ..).mono rfl
  | coverAdvance => exact (coverAdvance_within ..).mono rfl
  | pairAdvance => exact (pairAdvance_within ..).mono rfl
  | closeAtFire => exact (closeNext_within ..).mono rfl
  | takeFlight => exact (setInFlight_within ..).mono rfl
  | askCauses => exact (applyRequests_within ..).mono rfl
  | tellGap g => exact (append_within ..).mono rfl
  | leaveMask e => exact (unmask_within ..).mono rfl
  | closeDisabled e => exact (closeNext_within ..).mono rfl
  | report e => exact (reportFault_within ..).mono rfl
  | coverDisable e => exact (coverDisable_within ..).mono rfl

theorem runDeeds_within (ds : List Deed) : Within Footprint.disabling s (runDeeds v ds s) := by
  induction ds generalizing s with
  | nil => exact Within.refl _ s
  | cons d ds ih => exact (deed_within v d).trans ih

/-! ## The chain table in every order (R60, R68 to R72) -/

/-- The chain table has lost chains at most, which ends a CHAIN_FULL episode. -/
structure Thins (s t : State) : Prop where
  fewer : t.tracker.chains.Sublist s.tracker.chains
  rest : t.tracker = { s.tracker with chains := t.tracker.chains, inFlight := t.tracker.inFlight }
  chainFull : t.control.episodes.chainFull =
    (s.control.episodes.chainFull && decide (t.tracker.chains = s.tracker.chains))

theorem Thins.of_same (tracker : t.tracker = s.tracker)
    (chainFull : t.control.episodes.chainFull = s.control.episodes.chainFull) : Thins s t := by
  refine ⟨by rw [tracker], by rw [tracker], ?_⟩
  rw [tracker, chainFull, decide_eq_true rfl, Bool.and_true]

theorem Thins.refl (s : State) : Thins s s := Thins.of_same rfl rfl

theorem Thins.trans (h : Thins s t) (k : Thins t u) : Thins s u where
  fewer := k.fewer.trans h.fewer
  rest := by
    rw [k.rest, h.rest]
  chainFull := by
    rw [k.chainFull, h.chainFull, Bool.and_assoc]
    congr 1
    rw [← Bool.decide_and]
    refine decide_eq_decide.2 ⟨fun ⟨first, second⟩ => second.trans first, fun whole => ?_⟩
    have first : t.tracker.chains = s.tracker.chains :=
      h.fewer.eq_of_length_le (by rw [← whole]; exact k.fewer.length_le)
    exact ⟨first, whole.trans first.symm⟩

theorem closeNext_thins (pick : Chain → Bool) : Thins s (s.closeNext pick) := by
  cases found : s.tracker.chains.find? pick with
  | none =>
    rw [closeNext_none found]
    exact Thins.refl s
  | some c =>
    rw [closeNext_some found]
    have shorter : s.tracker.chains.eraseP pick ≠ s.tracker.chains := fun same => by
      have picked := List.find?_some found
      have less := List.length_eraseP_of_mem (List.mem_of_find?_eq_some found) picked
      have some := List.length_pos_of_mem (List.mem_of_find?_eq_some found)
      rw [same] at less
      omega
    refine ⟨List.eraseP_sublist .., rfl, ?_⟩
    show false = _
    rw [show (State.aside _ _ _ _ _ : State).tracker.chains = s.tracker.chains.eraseP pick from rfl,
      decide_eq_false shorter, Bool.and_false]

/-- What a closing picks, as the part stands. -/
def Deed.pick (t : State) : Deed → Option (Chain → Bool)
  | .closeAtAdvance => some fun c => v.reversal || (!t.tracker.flying c.element && t.gapExceeded v.travel c)
  | .closeAtFire => some fun c => v.set.get c.element && t.gapExceeded v.travel c
  | .closeDisabled e => some fun c => c.element == e
  | _ => none

theorem act_of_pick {d : Deed} {pick : Chain → Bool} (picks : d.pick v t = some pick) : d.act v t = t.closeNext pick := by
  cases d <;> cases picks <;> rfl

theorem coverAdvance_chainFull (travel : Nat) :
    (s.coverAdvance travel).control.episodes.chainFull = s.control.episodes.chainFull := by
  cases accounting : s.cover.accounting with
  | idle => rw [coverAdvance_idle accounting]
  | active =>
    by_cases past : s.cover.spanStart + s.spanMicros ≤ travel
    · rw [coverAdvance_past accounting past]
      exact (append_told _).chainFull
    · rw [coverAdvance_inside accounting (by exact Nat.not_le.1 past)]

theorem reportFault_chainFull (k : FaultKind) (a : BitVec 4) :
    (s.reportFault k a).control.episodes.chainFull = s.control.episodes.chainFull := by
  cases overflow : s.control.faults.overflow with
  | true => rw [reportFault_overflowed s k a overflow]
  | false =>
    by_cases records : s.control.faults.records.length < Config.faultCapacity
    · rw [reportFault_room s k a overflow records]
      exact (append_told _).chainFull
    · rw [reportFault_full s k a overflow records]
      exact (append_told _).chainFull

theorem coverDisable_chainFull (e : Element) :
    (s.coverDisable e).control.episodes.chainFull = s.control.episodes.chainFull := by
  rw [coverDisable_eq]
  exact (appendAll_told _).chainFull

/-- An act that is no closing puts the fired set in flight, or leaves the chain table and the CHAIN_FULL mark. -/
theorem act_of_no_pick {d : Deed} (none : d.pick v t = none) :
    (d = .takeFlight ∧ d.act v t = t.setInFlight (some v.set)) ∨
      ((d.act v t).tracker = t.tracker ∧
        (d.act v t).control.episodes.chainFull = t.control.episodes.chainFull) := by
  cases d with
  | closeAtAdvance => cases none
  | closeAtFire => cases none
  | closeDisabled e => cases none
  | takeFlight => exact .inl ⟨rfl, rfl⟩
  | tellStatus => exact .inr ⟨(append_within ..).tracker rfl, (append_told _).chainFull⟩
  | tellGap g => exact .inr ⟨(append_within ..).tracker rfl, (append_told _).chainFull⟩
  | coverAdvance => exact .inr ⟨(coverAdvance_within ..).tracker rfl, coverAdvance_chainFull _⟩
  | pairAdvance => exact .inr ⟨rfl, rfl⟩
  | askCauses =>
    have asked : Deed.askCauses.act v t = { t with cover := t.cover.asked .undersampled v.x v.ask } := applyRequests_eq
    rw [asked]
    exact .inr ⟨rfl, rfl⟩
  | leaveMask e => exact .inr ⟨rfl, rfl⟩
  | report e => exact .inr ⟨(reportFault_within ..).tracker rfl, reportFault_chainFull ..⟩
  | coverDisable e => exact .inr ⟨(coverDisable_within ..).tracker rfl, coverDisable_chainFull e⟩

theorem deed_thins (d : Deed) : Thins s (d.act v s) := by
  cases picks : d.pick v s with
  | none =>
    rcases act_of_no_pick v picks with ⟨-, flies⟩ | ⟨tracker, mark⟩
    · rw [flies]
      exact ⟨List.Sublist.refl _, rfl, by
        rw [show (s.setInFlight (some v.set)).tracker.chains = s.tracker.chains from rfl, decide_eq_true rfl, Bool.and_true]
        rfl⟩
    · exact Thins.of_same tracker mark
  | some pick =>
    rw [act_of_pick v picks]
    exact closeNext_thins pick

theorem runDeeds_thins (ds : List Deed) : Thins s (runDeeds v ds s) := by
  induction ds generalizing s with
  | nil => exact Thins.refl s
  | cons d ds ih => exact (deed_thins v d).trans ih

/-- The chain is past its gap at the event's travel, as the part `b` is configured. -/
def State.pastGap (b : State) (travel : Nat) (c : Chain) : Bool :=
  decide (1000 * (b.elem c.element).chainGap < travel - c.lastTravel)

/-- The chains a closing can pick at most, whatever flies. -/
def Deed.mayClose (b : State) : Deed → Chain → Bool
  | .closeAtAdvance, c => v.reversal || b.pastGap v.travel c
  | .closeAtFire, c => v.set.get c.element && b.pastGap v.travel c
  | .closeDisabled e, c => c.element == e
  | _, _ => false

/-- The chains a closing picks for certain, whichever of nothing and the fired set flies. -/
def Deed.mustClose (b : State) : Deed → Chain → Bool
  | .closeAtAdvance, c => v.reversal || (!v.set.get c.element && b.pastGap v.travel c)
  | .closeAtFire, c => v.set.get c.element && b.pastGap v.travel c
  | .closeDisabled e, c => c.element == e
  | _, _ => false

/-- Nothing flies, or the fired set does, or no closing of an advance asks. -/
def Event.fliesWith (ds : List Deed) (t : State) : Prop :=
  t.tracker.inFlight = none ∨ t.tracker.inFlight = some v.set ∨ Deed.closeAtAdvance ∉ ds

variable {v} {d : Deed} {ds : List Deed} {pick : Chain → Bool}

theorem gapExceeded_eq {p : Footprint} (within : Within p b t) (setup : p.setup = false) (travel : Nat) (c : Chain) :
    t.gapExceeded travel c = b.pastGap travel c := by
  unfold State.gapExceeded State.gapLimit State.elem State.config
  rw [within.setup_config setup]
  rfl

theorem pick_bounds (within : Within Footprint.disabling b t) (flies : v.fliesWith (d :: ds) t)
    (picks : d.pick v t = some pick) (c : Chain) :
    (pick c = true → d.mayClose v b c = true) ∧ (d.mustClose v b c = true → pick c = true) := by
  have gap := gapExceeded_eq within rfl v.travel c
  cases d with
  | closeAtFire =>
    cases picks
    simp only [gap]
    exact ⟨id, id⟩
  | closeDisabled e =>
    cases picks
    exact ⟨id, id⟩
  | closeAtAdvance =>
    cases picks
    simp only [gap, Deed.mayClose, Deed.mustClose, Bool.or_eq_true, Bool.and_eq_true, Bool.not_eq_true']
    refine ⟨Or.imp_right And.right, Or.imp_right fun ⟨apart, past⟩ => ⟨?_, past⟩⟩
    rcases flies with none | fired | absent
    · rw [Tracker.flying, none]
      rfl
    · rw [Tracker.flying, fired]
      exact apart
    · exact absurd (List.mem_cons_self ..) absent
  | _ => cases picks

theorem filter_eraseP_of_apart {keep pick : Chain → Bool} (apart : ∀ c, keep c = true → pick c = false)
    (chains : List Chain) : (chains.eraseP pick).filter keep = chains.filter keep := by
  induction chains with
  | nil => rfl
  | cons c chains ih =>
    cases picked : pick c with
    | true =>
      have gone : keep c = false := Bool.eq_false_iff.2 fun kept => by
        rw [apart c kept] at picked
        cases picked
      simp [picked, gone]
    | false => simp [picked, List.filter_cons, ih]

theorem act_inFlight : (d = .takeFlight ∧ (d.act v t).tracker.inFlight = some v.set) ∨
    (d.act v t).tracker.inFlight = t.tracker.inFlight := by
  cases picks : d.pick v t with
  | some pick =>
    refine .inr ?_
    rw [act_of_pick v picks]
    rcases closeNext_cases t pick with ⟨-, same⟩ | ⟨c, -, table, -⟩
    · rw [same]
    · rw [table]
  | none =>
    rcases act_of_no_pick v picks with ⟨rfl, taken⟩ | ⟨tracker, -⟩
    · exact .inl ⟨rfl, by rw [taken]; rfl⟩
    · exact .inr (by rw [tracker])

/-- What flies after an act. -/
theorem act_fliesWith (flies : v.fliesWith (d :: ds) t) : v.fliesWith ds (d.act v t) := by
  rcases act_inFlight (v := v) (d := d) (t := t) with ⟨-, taken⟩ | same
  · exact .inr (.inl taken)
  · unfold Event.fliesWith
    rw [same]
    exact flies.imp_right (Or.imp_right fun absent mem => absent (List.mem_cons_of_mem _ mem))

/-- Chains no closing of a list can pick stay. -/
theorem runDeeds_keeps (within : Within Footprint.disabling b t) (flies : v.fliesWith ds t) (keep : Chain → Bool)
    (safe : ∀ d ∈ ds, ∀ c, keep c = true → d.mayClose v b c = false) :
    (runDeeds v ds t).tracker.chains.filter keep = t.tracker.chains.filter keep := by
  induction ds generalizing t with
  | nil => rfl
  | cons d ds ih =>
    refine (ih (within.trans (deed_within v d)) (act_fliesWith flies)
      fun d' mem => safe d' (List.mem_cons_of_mem _ mem)).trans ?_
    cases picks : d.pick v t with
    | none =>
      rcases act_of_no_pick v picks with ⟨-, taken⟩ | ⟨tracker, -⟩
      · rw [taken]
        rfl
      · rw [tracker]
    | some pick =>
      rw [act_of_pick v picks]
      rcases closeNext_cases t pick with ⟨-, same⟩ | ⟨c, found, table, -⟩
      · rw [same]
      · rw [table]
        have apart : ∀ c, keep c = true → pick c = false := fun c kept =>
          Bool.eq_false_iff.2 fun picked => by
            have may := (pick_bounds within flies picks c).1 picked
            rw [safe d (List.mem_cons_self ..) c kept] at may
            cases may
        exact filter_eraseP_of_apart apart _

/-- As many closings of one kind as there are chains leave none that they must pick. -/
theorem runDeeds_closes {n : Nat} (within : Within Footprint.disabling b t) (flies : v.fliesWith ds t)
    (few : t.tracker.chains.length ≤ n) (enough : (List.replicate n d).Sublist ds) (closing : ∀ u, (d.pick v u).isSome) :
    ∀ c ∈ (runDeeds v ds t).tracker.chains, d.mustClose v b c = false := by
  induction ds generalizing t n with
  | nil =>
    have zero : n = 0 := by
      have none := List.sublist_nil.1 enough
      exact (List.replicate_eq_nil_iff _).1 none
    have empty : t.tracker.chains = [] := List.length_eq_zero_iff.1 (Nat.le_zero.1 (zero ▸ few))
    intro c mem
    rw [runDeeds_nil, empty] at mem
    exact absurd mem List.not_mem_nil
  | cons d' ds ih =>
    have within' := within.trans (deed_within v d' (s := t))
    have flies' := act_fliesWith flies
    have fewer := (deed_thins v d' (s := t)).fewer
    rcases List.sublist_cons_iff.1 enough with later | ⟨rest, now, later⟩
    · exact ih within' flies' (fewer.length_le.trans few) later
    · cases n with
      | zero => cases now
      | succ m =>
        obtain ⟨rfl, rfl⟩ : d = d' ∧ List.replicate m d = rest := List.cons.inj now
        obtain ⟨pick, picks⟩ := Option.isSome_iff_exists.1 (closing t)
        rcases closeNext_cases t pick with ⟨nothing, -⟩ | ⟨c, found, table, -⟩
        · intro c mem
          have inside : c ∈ t.tracker.chains := fewer.subset ((runDeeds_thins v ds).fewer.subset mem)
          exact Bool.eq_false_iff.2 fun must =>
            List.find?_eq_none.1 nothing c inside ((pick_bounds within flies picks c).2 must)
        · refine ih within' flies' ?_ later
          have less := List.length_eraseP_of_mem (List.mem_of_find?_eq_some found) (List.find?_some found)
          show (d.act v t).tracker.chains.length ≤ m
          rw [act_of_pick v picks, table]
          show (t.tracker.chains.eraseP pick).length ≤ m
          omega

/-- The chain table after every order of closings: the chains that one of them may pick are gone, when each such chain is
one that a closing repeated often enough must pick. -/
theorem runDeeds_chains (flies : v.fliesWith ds b)
    (complete : ∀ c, (∃ d ∈ ds, d.mayClose v b c = true) → ∃ d, d.mustClose v b c = true ∧ (∀ u, (d.pick v u).isSome) ∧
      (List.replicate b.tracker.chains.length d).Sublist ds)
    (gone : Chain → Bool) (gone_iff : ∀ c, gone c = true ↔ ∃ d ∈ ds, d.mayClose v b c = true) :
    (runDeeds v ds b).tracker.chains = b.tracker.chains.filter fun c => !gone c := by
  have within : Within Footprint.disabling b b := Within.refl _ b
  have kept := runDeeds_keeps within flies (fun c => !gone c) fun d mem c keep => Bool.eq_false_iff.2 fun may => by
    rw [(gone_iff c).2 ⟨d, mem, may⟩] at keep
    cases keep
  rw [← kept]
  refine (List.filter_eq_self.2 fun c mem => ?_).symm
  rw [Bool.not_eq_true']
  refine Bool.eq_false_iff.2 fun lost => ?_
  obtain ⟨d, must, closing, enough⟩ := complete c ((gone_iff c).1 lost)
  rw [runDeeds_closes within flies (Nat.le_refl _) enough closing c mem] at must
  cases must

/-- Once the fired set flies it stays in flight. -/
theorem runDeeds_keepsFlight (fired : s.tracker.inFlight = some v.set) :
    (runDeeds v ds s).tracker.inFlight = some v.set := by
  induction ds generalizing s with
  | nil => exact fired
  | cons d ds ih =>
    refine ih ?_
    rcases act_inFlight (v := v) (d := d) (t := s) with taken | same
    · rw [taken.2]
    · rw [same, fired]

theorem runDeeds_takesFlight (takes : Deed.takeFlight ∈ ds) : (runDeeds v ds s).tracker.inFlight = some v.set := by
  induction ds generalizing s with
  | nil => cases takes
  | cons d ds ih =>
    rcases List.mem_cons.1 takes with rfl | later
    · exact runDeeds_keepsFlight (s := Deed.takeFlight.act v s) rfl
    · exact ih later
end

end Sys2Proof.Machine
end

section
/-! SUPPORT. What an order of the acts of a fire leaves of the coverage account, the fault file and the transmit queue:
the acts of the fire's own lane in their order, whatever the other lanes put between them. -/

namespace Sys2Proof.Machine

variable {s t u b : State} {v : Event} {d : Deed} {ds : List Deed}

/-! ## The coverage account (R102 to R104, R110, R170) -/

/-- An element's account with its gap travel left out. -/
def ElementCover.share (c : ElementCover) : ElementCover := { c with gapTravel := 0 }

theorem share_asked (c : ElementCover) (cause : Cause) (x : Int) (ask : Option Bool) :
    (c.asked cause x ask).share = c.share.asked cause x ask := rfl

theorem share_disabled (c : ElementCover) (x : Int) : (c.disabled x).share = c.share.disabled x := rfl

/-- The account with the gap travel left out. -/
def Coverage.shares (c : Coverage) : Eight ElementCover := c.element.map ElementCover.share

theorem shares_get (c : Coverage) (e : Element) : c.shares.get e = (c.element.get e).share := Eight.get_map ..

/-- What an act makes of the shares of an active account. -/
def Deed.sharesAfter (v : Event) (w : Eight ElementCover) : Deed → Eight ElementCover
  | .askCauses => Eight.ofFn fun e => (w.get e).asked .undersampled v.x (v.ask e)
  | .coverDisable e => w.set e ((w.get e).disabled v.x)
  | _ => w

theorem coverAdvance_shares (travel : Nat) : (s.coverAdvance travel).cover.shares = s.cover.shares ∧
    (s.coverAdvance travel).cover.accounting = s.cover.accounting := by
  have counted (c : Coverage) (n : Nat) : (c.countGapTravel n).shares = c.shares := by
    refine Eight.ext_get fun e => ?_
    rw [shares_get, shares_get, countGapTravel_eq, Eight.get_ofFn]
    rfl
  have restarted (c : Coverage) (n : Nat) : (c.restartGapTravel n).shares = c.shares := by
    refine Eight.ext_get fun e => ?_
    rw [shares_get, shares_get, restartGapTravel_eq, Eight.get_ofFn]
    rfl
  cases accounting : s.cover.accounting with
  | idle => rw [coverAdvance_idle accounting]; exact ⟨rfl, accounting⟩
  | active =>
    by_cases past : s.cover.spanStart + s.spanMicros ≤ travel
    · rw [coverAdvance_past accounting past]
      have same : ((s.spanCounted travel).append ((s.spanCounted travel).spanNotice s.spanMicros)).cover =
          (s.spanCounted travel).cover := (append_within ..).cover rfl
      refine ⟨(restarted _ _).trans ?_, ?_⟩
      · rw [same]
        exact counted ..
      · exact (congrArg Coverage.accounting same).trans accounting
    · rw [coverAdvance_inside accounting (by exact Nat.not_le.1 past)]
      exact ⟨counted .., accounting⟩

/-- The account an act works on is the monitor's part of the event alone. -/
theorem act_shares (x : s.currentX = v.x) :
    (d.act v s).cover.accounting = s.cover.accounting ∧
      (s.cover.accounting = .active → (d.act v s).cover.shares = d.sharesAfter v s.cover.shares) := by
  have keeps (same : (d.act v s).cover = s.cover) (stays : d.sharesAfter v s.cover.shares = s.cover.shares) :
      (d.act v s).cover.accounting = s.cover.accounting ∧
        (s.cover.accounting = .active → (d.act v s).cover.shares = d.sharesAfter v s.cover.shares) := by
    rw [same]
    exact ⟨rfl, fun _ => stays.symm⟩
  cases d with
  | tellStatus => exact keeps ((append_within ..).cover rfl) rfl
  | closeAtAdvance => exact keeps ((closeNext_within ..).cover rfl) rfl
  | closeAtFire => exact keeps ((closeNext_within ..).cover rfl) rfl
  | closeDisabled e => exact keeps ((closeNext_within ..).cover rfl) rfl
  | pairAdvance => exact keeps rfl rfl
  | takeFlight => exact keeps rfl rfl
  | tellGap g => exact keeps ((append_within ..).cover rfl) rfl
  | leaveMask e => exact keeps rfl rfl
  | report e => exact keeps ((reportFault_within ..).cover rfl) rfl
  | coverAdvance => exact ⟨(coverAdvance_shares _).2, fun _ => (coverAdvance_shares _).1⟩
  | askCauses =>
    have asked : Deed.askCauses.act v s = { s with cover := s.cover.asked .undersampled v.x v.ask } := applyRequests_eq
    rw [asked]
    refine ⟨rfl, fun _ => Eight.ext_get fun e => ?_⟩
    rw [shares_get, Deed.sharesAfter, Coverage.asked, Eight.get_ofFn, Eight.get_ofFn, shares_get]
    rfl
  | coverDisable e =>
    have worked : (Deed.coverDisable e |>.act v s).cover = s.cover.disabled e v.x := by
      rw [← x]
      exact (congrArg State.cover (coverDisable_eq e)).trans ((appendAll_told _).within.cover rfl)
    rw [worked]
    refine ⟨?_, fun active => Eight.ext_get fun i => ?_⟩
    · unfold Coverage.disabled
      split <;> rfl
    · rw [Coverage.disabled, if_pos active, shares_get, Deed.sharesAfter]
      by_cases here : i = e
      · subst here
        rw [withElement_get, Eight.get_set_same, shares_get]
        rfl
      · rw [withElement_get_other _ here, Eight.get_set_other _ here, shares_get]

theorem act_idle (idle : s.cover.accounting = .idle) (asks : d ≠ .askCauses) : (d.act v s).cover = s.cover := by
  cases d with
  | tellStatus => exact (append_within ..).cover rfl
  | closeAtAdvance => exact (closeNext_within ..).cover rfl
  | closeAtFire => exact (closeNext_within ..).cover rfl
  | closeDisabled e => exact (closeNext_within ..).cover rfl
  | pairAdvance => rfl
  | takeFlight => rfl
  | tellGap g => exact (append_within ..).cover rfl
  | leaveMask e => rfl
  | report e => exact (reportFault_within ..).cover rfl
  | coverAdvance => exact congrArg State.cover (coverAdvance_idle idle)
  | askCauses => exact absurd rfl asks
  | coverDisable e => exact congrArg State.cover (coverDisable_idle e idle)

theorem runDeeds_idle (idle : s.cover.accounting = .idle) (asks : Deed.askCauses ∉ ds) :
    (runDeeds v ds s).cover = s.cover := by
  induction ds generalizing s with
  | nil => rfl
  | cons d ds ih =>
    have here := act_idle (v := v) idle (d := d) fun same => asks (same ▸ List.mem_cons_self ..)
    exact (ih (by rw [here]; exact idle) fun later => asks (List.mem_cons_of_mem _ later)).trans here

theorem runDeeds_shares (x : s.currentX = v.x) (active : s.cover.accounting = .active) :
    (runDeeds v ds s).cover.shares = ds.foldl (Deed.sharesAfter v) s.cover.shares := by
  induction ds generalizing s with
  | nil => rfl
  | cons d ds ih =>
    obtain ⟨accounting, shares⟩ := act_shares (d := d) x
    have there : (d.act v s).currentX = v.x := ((deed_within v d).currentX rfl rfl).trans x
    rw [runDeeds_cons, ih there (accounting.trans active), shares active, List.foldl_cons]

/-- The acts of the fire's own lane: the causes asked for and the disables. -/
def Deed.own : Deed → Bool
  | .askCauses => true
  | .tellGap _ => true
  | .leaveMask _ => true
  | .report _ => true
  | .coverDisable _ => true
  | _ => false

theorem foldl_sharesAfter_own (w : Eight ElementCover) :
    ds.foldl (Deed.sharesAfter v) w = (ds.filter Deed.own).foldl (Deed.sharesAfter v) w := by
  induction ds generalizing w with
  | nil => rfl
  | cons d ds ih =>
    rw [List.filter_cons]
    cases d <;> exact ih _

/-! ## The enable mask (R36, R170) -/

theorem act_mask (e : Element) : (d.act v s).control.enableMask.get e = true ↔
    s.control.enableMask.get e = true ∧ d ≠ .leaveMask e := by
  have keeps (same : (d.act v s).control.enableMask = s.control.enableMask) (other : d ≠ .leaveMask e) :
      (d.act v s).control.enableMask.get e = true ↔ s.control.enableMask.get e = true ∧ d ≠ .leaveMask e := by
    rw [same]
    exact (and_iff_left other).symm
  cases d with
  | tellStatus => exact keeps ((append_within ..).mask rfl) nofun
  | closeAtAdvance => exact keeps ((closeNext_within ..).mask rfl) nofun
  | closeAtFire => exact keeps ((closeNext_within ..).mask rfl) nofun
  | closeDisabled i => exact keeps ((closeNext_within ..).mask rfl) nofun
  | pairAdvance => exact keeps rfl nofun
  | takeFlight => exact keeps rfl nofun
  | tellGap g => exact keeps ((append_within ..).mask rfl) nofun
  | report i => exact keeps ((reportFault_within ..).mask rfl) nofun
  | coverAdvance => exact keeps ((coverAdvance_within ..).mask rfl) nofun
  | askCauses => exact keeps ((applyRequests_within ..).mask rfl) nofun
  | coverDisable i => exact keeps ((coverDisable_within ..).mask rfl) nofun
  | leaveMask i =>
    show (s.control.enableMask.set i false).get e = true ↔ _
    by_cases here : e = i
    · subst here
      rw [Eight.get_set_same]
      exact ⟨nofun, fun ⟨_, other⟩ => absurd rfl other⟩
    · rw [Eight.get_set_other _ here]
      exact (and_iff_left fun same => here (Deed.leaveMask.inj same).symm).symm

theorem runDeeds_mask (e : Element) : (runDeeds v ds s).control.enableMask.get e = true ↔
    s.control.enableMask.get e = true ∧ Deed.leaveMask e ∉ ds := by
  induction ds generalizing s with
  | nil => simp
  | cons d ds ih => rw [runDeeds_cons, ih, act_mask, List.mem_cons, not_or, and_assoc, ne_comm]

/-! ## Notices and records, with places for all of them (R36, R103, R148, R170, R172) -/

/-- The places of the transmit queue an act takes at most, beside the notice of a chain that closes. -/
def Deed.cost : Deed → Nat
  | .tellStatus => 1
  | .coverAdvance => 1
  | .tellGap _ => 1
  | .report _ => 1
  | .coverDisable _ => 1
  | _ => 0

/-- The records an act files. -/
def Deed.files : Deed → Nat
  | .report _ => 1
  | _ => 0

def deedCost (ds : List Deed) : Nat := (ds.map Deed.cost).sum
def deedFiles (ds : List Deed) : Nat := (ds.map Deed.files).sum

/-- GAP and FAULT notices. -/
def Frame.tellsFire (f : Frame) : Bool := f.kind == Kind.gap || f.kind == Kind.fault

/-- What the fire's own lane has told so far: the shares of the account, the records filed and the notices queued. -/
structure Ledger where
  shares : Eight ElementCover
  records : List FaultRecord
  frames : List Frame

/-- The PULSER record of an element, of a part `b` that holds `n` records. -/
def State.pulserRecord (b : State) (n : Nat) (e : Element) : FaultRecord :=
  { kind := .pulser, arg := BitVec.ofNat 4 e.val, position := some b.currentX, runNumber := b.control.runNumber,
    index := min (b.control.faults.firstIndex + n) 65535 }

/-- What an act adds to the ledger of a fire that began in `b`. -/
def Ledger.after (v : Event) (b : State) (l : Ledger) : Deed → Ledger
  | .askCauses => { l with shares := Deed.askCauses.sharesAfter v l.shares }
  | .tellGap g => { l with frames := l.frames ++ [b.gapNotice g] }
  | .report e =>
    { l with
      records := l.records ++ [b.pulserRecord l.records.length e]
      frames := l.frames ++ [faultNotice b.control.address (b.pulserRecord l.records.length e)] }
  | .coverDisable e =>
    if b.cover.accounting = .active then
      { l with
        shares := (Deed.coverDisable e).sharesAfter v l.shares
        frames := l.frames ++
          if (l.shares.get e).causes.nonempty then [] else [b.oneNotice 4 v.x e (false, v.x)] }
    else l
  | _ => l

/-- The part agrees with the ledger of a fire that began in `b`: its records, and the GAP and FAULT notices among what
was queued since. -/
structure Ledgered (v : Event) (b t : State) (l : Ledger) : Prop where
  within : Within Footprint.disabling b t
  accounting : t.cover.accounting = b.cover.accounting
  shares : b.cover.accounting = .active → t.cover.shares = l.shares
  faults : t.control.faults = { b.control.faults with records := l.records }
  queued : ∃ new, t.link = b.link.queueing new ∧ new.filter Frame.tellsFire = l.frames

/-- There are places for the notices and records of the acts to come. -/
def State.fitsDeeds (t : State) (ds : List Deed) : Prop :=
  t.hasRoomFor (t.tracker.chains.length + deedCost ds) ∧
    (deedFiles ds = 0 ∨ (t.control.faults.overflow = false ∧ t.control.faults.records.length + deedFiles ds ≤ 8))

/-- What one act does to the link, the fault file and the chain table: it queues the notices `fs`, files the records
`rs`, and takes no more places than it costs. -/
structure Tells (d : Deed) (t t' : State) (fs : List Frame) (rs : List FaultRecord) : Prop where
  link : t'.link = t.link.queueing fs
  faults : t'.control.faults = { t.control.faults with records := t.control.faults.records ++ rs }
  places : t'.tracker.chains.length + fs.length ≤ t.tracker.chains.length + d.cost
  files : rs.length = d.files

theorem tells_nothing {t' : State} (link : t'.link = t.link) (faults : t'.control.faults = t.control.faults)
    (chains : t'.tracker.chains.length ≤ t.tracker.chains.length) (files : d.files = 0) : Tells d t t' [] [] := by
  refine ⟨by rw [link, Link.queueing_nil], by rw [faults, List.append_nil], ?_, files.symm⟩
  exact Nat.le_add_right_of_le chains

theorem tells_one (f : Frame) (room : t.hasRoomFor 1) (cost : d.cost = 1) (files : d.files = 0) :
    Tells d t (t.append f) [f] [] := by
  rw [append_fits f room]
  exact ⟨rfl, by rw [List.append_nil], by rw [cost]; exact Nat.le_refl _, files.symm⟩

/-- A notice told with another account. -/
theorem tells_one_aside {cover : Coverage} {e : Element} {f : Frame} (room : t.hasRoomFor 1) :
    Tells (.coverDisable e) t (({ t with cover := cover } : State).append f) [f] [] := by
  rw [append_fits f (by exact room)]
  exact ⟨rfl, by rw [List.append_nil], Nat.le_refl _, rfl⟩

theorem tells_fits {t' : State} {fs : List Frame} {rs : List FaultRecord} (tells : Tells d t t' fs rs)
    (fits : t.fitsDeeds (d :: ds)) : t'.fitsDeeds ds := by
  obtain ⟨room, file⟩ := fits
  have cost : deedCost (d :: ds) = d.cost + deedCost ds := rfl
  have files : deedFiles (d :: ds) = d.files + deedFiles ds := rfl
  have places := tells.places
  refine ⟨?_, ?_⟩
  · simp only [State.hasRoomFor, cost] at room
    simp only [State.hasRoomFor, tells.link, Link.queueing_txQueue, List.length_append]
    omega
  · rw [files] at file
    rw [tells.faults]
    rcases file with none | ⟨overflow, few⟩
    · exact .inl (by omega)
    · refine .inr ⟨overflow, ?_⟩
      rw [List.length_append, tells.files]
      omega

/-- A closing tells of one indication at most, and its chain's place pays for it. -/
theorem closeNext_tells {pick : Chain → Bool} {n : Nat} (room : t.hasRoomFor (t.tracker.chains.length + n))
    (files : d.files = 0) :
    ∃ fs : List Frame, fs.filter Frame.tellsFire = [] ∧ Tells d t (t.closeNext pick) fs [] := by
  cases found : t.tracker.chains.find? pick with
  | none =>
    rw [closeNext_none found]
    exact ⟨[], rfl, tells_nothing rfl rfl (Nat.le_refl _) files⟩
  | some c =>
    have less := List.length_eraseP_of_mem (List.mem_of_find?_eq_some found) (List.find?_some found)
    have some := List.length_pos_of_mem (List.mem_of_find?_eq_some found)
    have chains : (t.closeNext pick).tracker.chains = t.tracker.chains.eraseP pick := by rw [closeNext_some found]; rfl
    rcases judgeChain_judgedOnce (s := t) c with ⟨j, judged⟩ | ⟨j, p, f, kind, -, -, -, judged⟩
    · refine ⟨[], rfl, tells_nothing ?_ ?_ (by rw [chains]; omega) files⟩ <;> rw [closeNext_some found, judged] <;> rfl
    · have one : State.hasRoomFor { t with judge := j, pair := p } 1 := by
        simp only [State.hasRoomFor] at room ⊢
        omega
      rw [append_fits f one] at judged
      refine ⟨[f], ?_, ?_, ?_, ?_, files.symm⟩
      · have other : f.tellsFire = false := by rw [Frame.tellsFire, kind]; rfl
        rw [List.filter_cons, if_neg (by rw [other]; exact Bool.noConfusion)]
        rfl
      · rw [closeNext_some found, judged]
        rfl
      · rw [closeNext_some found, judged, List.append_nil]
        rfl
      · rw [chains, List.length_singleton]
        omega

/-- One act, with places for it: the ledger grows by it, and the places for the rest stay. -/
theorem act_ledgered {l : Ledger} (ledgered : Ledgered v b t l) (x : b.currentX = v.x) (run : b.inRun)
    (fits : t.fitsDeeds (d :: ds)) : Ledgered v b (d.act v t) (l.after v b d) ∧ (d.act v t).fitsDeeds ds := by
  have there : t.currentX = v.x := (ledgered.within.currentX rfl rfl).trans x
  obtain ⟨accounting, shares⟩ := act_shares (d := d) there
  have shares_after (active : b.cover.accounting = .active) : (d.act v t).cover.shares = (l.after v b d).shares := by
    rw [shares (ledgered.accounting.trans active), ledgered.shares active]
    cases d with
    | coverDisable e => rw [Ledger.after, if_pos active]
    | _ => rfl
  have told (fs : List Frame) (rs : List FaultRecord) (tells : Tells d t (d.act v t) fs rs)
      (records : (l.after v b d).records = l.records ++ rs)
      (frames : (l.after v b d).frames = l.frames ++ fs.filter Frame.tellsFire) :
      Ledgered v b (d.act v t) (l.after v b d) ∧ (d.act v t).fitsDeeds ds := by
    refine ⟨⟨ledgered.within.trans (deed_within v d), accounting.trans ledgered.accounting, shares_after, ?_, ?_⟩,
      tells_fits tells fits⟩
    · rw [tells.faults, ledgered.faults, records]
    · obtain ⟨new, queued, told⟩ := ledgered.queued
      refine ⟨new ++ fs, by rw [tells.link, queued, Link.queueing_queueing], ?_⟩
      rw [List.filter_append, told, frames]
  have quiet (tells : Tells d t (d.act v t) [] []) (records : (l.after v b d).records = l.records)
      (frames : (l.after v b d).frames = l.frames) :
      Ledgered v b (d.act v t) (l.after v b d) ∧ (d.act v t).fitsDeeds ds :=
    told [] [] tells (by rw [records, List.append_nil]) (by rw [frames]; exact (List.append_nil _).symm)
  obtain ⟨room, file⟩ := fits
  have closes {pick : Chain → Bool} (act : d.act v t = t.closeNext pick) (files : d.files = 0) (same : l.after v b d = l) :
      Ledgered v b (d.act v t) (l.after v b d) ∧ (d.act v t).fitsDeeds ds := by
    obtain ⟨fs, none, tells⟩ := closeNext_tells (d := d) (pick := pick) room files
    exact told fs [] (act ▸ tells) (by rw [same, List.append_nil]) (by rw [same, none, List.append_nil])
  have place (cost : d.cost = 1) : t.hasRoomFor 1 := by
    have sum : deedCost (d :: ds) = d.cost + deedCost ds := rfl
    simp only [State.hasRoomFor, sum, cost] at room ⊢
    omega
  cases d with
  | closeAtAdvance => exact closes rfl rfl rfl
  | closeAtFire => exact closes rfl rfl rfl
  | closeDisabled e => exact closes rfl rfl rfl
  | pairAdvance => exact quiet (tells_nothing rfl rfl (Nat.le_refl _) rfl) rfl rfl
  | takeFlight => exact quiet (tells_nothing rfl rfl (Nat.le_refl _) rfl) rfl rfl
  | leaveMask e => exact quiet (tells_nothing rfl rfl (Nat.le_refl _) rfl) rfl rfl
  | askCauses =>
    have asked : Deed.askCauses.act v t = { t with cover := t.cover.asked .undersampled v.x v.ask } := applyRequests_eq
    exact quiet (by rw [asked]; exact tells_nothing rfl rfl (Nat.le_refl _) rfl) rfl rfl
  | tellStatus => exact told [_] [] (tells_one _ (place rfl) rfl rfl) (List.append_nil _).symm (List.append_nil _).symm
  | tellGap g =>
    have same : t.gapNotice g = b.gapNotice g := by
      rw [State.gapNotice, State.gapNotice, ledgered.within.setup_address rfl]
    refine told [t.gapNotice g] [] (tells_one _ (place rfl) rfl rfl) (List.append_nil _).symm ?_
    rw [same]
    rfl
  | coverAdvance =>
    have act : Deed.coverAdvance.act v t = t.coverAdvance v.travel := rfl
    cases accounting : t.cover.accounting with
    | idle =>
      rw [coverAdvance_idle accounting] at act
      exact quiet (by rw [act]; exact tells_nothing rfl rfl (Nat.le_refl _) rfl) rfl rfl
    | active =>
      by_cases past : t.cover.spanStart + t.spanMicros ≤ v.travel
      · rw [coverAdvance_past accounting past, append_fits _ (by exact place rfl)] at act
        refine told [(t.spanCounted v.travel).spanNotice t.spanMicros] [] ?_ (List.append_nil _).symm (List.append_nil _).symm
        rw [act]
        exact ⟨rfl, by rw [List.append_nil]; rfl, Nat.le_refl _, rfl⟩
      · rw [coverAdvance_inside accounting (by exact Nat.not_le.1 past)] at act
        exact quiet (by rw [act]; exact tells_nothing rfl rfl (Nat.le_refl _) rfl) rfl rfl
  | report e =>
    have some : deedFiles (.report e :: ds) = 1 + deedFiles ds := rfl
    obtain ⟨overflow, few⟩ : t.control.faults.overflow = false ∧
        t.control.faults.records.length + deedFiles (.report e :: ds) ≤ 8 := file.resolve_left (by omega)
    have in_run : t.control.state.inRun = true := by
      rw [ledgered.within.station_state rfl]
      exact run
    have record : t.faultRecord .pulser (BitVec.ofNat 4 e.val) = b.pulserRecord l.records.length e := by
      rw [State.faultRecord, if_pos in_run, ledgered.within.currentX rfl rfl, ledgered.within.run_runNumber rfl,
        ledgered.faults]
      rfl
    have act : (Deed.report e).act v t = _ :=
      reportFault_fits t .pulser (BitVec.ofNat 4 e.val) overflow (show _ < 8 by omega) (place rfl)
    rw [record, ledgered.within.setup_address rfl] at act
    refine told [faultNotice b.control.address (b.pulserRecord l.records.length e)] [b.pulserRecord l.records.length e]
      ?_ rfl rfl
    rw [act]
    exact ⟨rfl, rfl, Nat.le_refl _, rfl⟩
  | coverDisable e =>
    have act : (Deed.coverDisable e).act v t = _ := coverDisable_eq e
    have notice : t.oneNotice 4 t.currentX e (false, t.currentX) = b.oneNotice 4 v.x e (false, v.x) := by
      rw [there, State.oneNotice, State.gapNotice, ledgered.within.setup_address rfl]
      rfl
    rw [notice] at act
    cases accounting : b.cover.accounting with
    | idle =>
      have closed : t.cover.opensGap e = false := by
        rw [Coverage.opensGap, ledgered.accounting, accounting]
        rfl
      rw [closed] at act
      have same : l.after v b (.coverDisable e) = l := if_neg (by rw [accounting]; decide)
      exact quiet (by rw [act]; exact tells_nothing rfl rfl (Nat.le_refl _) rfl) (by rw [same]) (by rw [same])
    | active =>
      have shown : (t.cover.element.get e).causes = (l.shares.get e).causes := by
        rw [← ledgered.shares accounting, shares_get]
        rfl
      have opens : t.cover.opensGap e = !(l.shares.get e).causes.nonempty := by
        rw [Coverage.opensGap, ledgered.accounting, accounting, shown]
        exact Bool.true_and _
      rw [opens] at act
      have records : (l.after v b (.coverDisable e)).records = l.records := by rw [Ledger.after, if_pos accounting]
      have frames : (l.after v b (.coverDisable e)).frames = l.frames ++
          if (l.shares.get e).causes.nonempty then [] else [b.oneNotice 4 v.x e (false, v.x)] := by
        rw [Ledger.after, if_pos accounting]
      cases carries : (l.shares.get e).causes.nonempty with
      | true =>
        rw [carries] at act frames
        refine quiet (by rw [act]; exact tells_nothing rfl rfl (Nat.le_refl _) rfl) records ?_
        rw [frames]
        exact List.append_nil _
      | false =>
        rw [carries] at act frames
        refine told [b.oneNotice 4 v.x e (false, v.x)] [] ?_ (by rw [records, List.append_nil]) frames
        rw [act]
        exact tells_one_aside (by exact place rfl)

theorem runDeeds_ledgered {l : Ledger} (ledgered : Ledgered v b t l) (x : b.currentX = v.x) (run : b.inRun)
    (fits : t.fitsDeeds ds) : Ledgered v b (runDeeds v ds t) (ds.foldl (Ledger.after v b) l) := by
  induction ds generalizing t l with
  | nil => exact ledgered
  | cons d ds ih =>
    obtain ⟨next, rest⟩ := act_ledgered ledgered x run fits
    exact ih next rest

theorem foldl_after_own (l : Ledger) :
    ds.foldl (Ledger.after v b) l = (ds.filter Deed.own).foldl (Ledger.after v b) l := by
  induction ds generalizing l with
  | nil => rfl
  | cons d ds ih =>
    rw [List.filter_cons]
    cases d <;> exact ih _

end Sys2Proof.Machine
end

section
/-! SUPPORT. A fire in every order of its acts: what State.fires says of it. -/

namespace Sys2Proof.Machine

variable {s t u b : State} {peaks : Eight Nat} {taken : List Element} {ds : List Deed}

/-! ## The lanes of a fire by name (R22 to R24, R36, R60, R72) -/

/-- What a fire asks of the cause UNDERSAMPLED for an element: its new mark, when the fire changed it. -/
def State.asksUndersampled (s : State) (taken : List Element) (e : Element) : Option Bool :=
  let before := s.sched.element.get e
  let after := fireElement s.odo.travel (s.elem e).pitch before
  if taken.contains e ∧ before.undersampled ≠ after.undersampled then some after.undersampled else none

/-- The fire of the elements `taken` as an event; `reversal` is that of the edge it comes with, if any. -/
def State.fireEvent (s : State) (taken : List Element) (reversal : Bool) : Event :=
  { travel := s.odo.travel, reversal := reversal, set := setOf taken, x := s.currentX, ask := s.asksUndersampled taken }

/-- The elements at their third bad fire, in increasing number. -/
def State.third (s : State) (peaks : Eight Nat) (taken : List Element) : List Element :=
  elements.filter fun e => s.thirdBad peaks taken e

/-- The groups of gaps that the marks of a fire open and close. -/
def State.sampledGroups (s : State) (taken : List Element) : List GapGroup :=
  groupChanges (elements.filterMap
    (noteChange 3 s.currentX (s.cover.askedChange .undersampled s.currentX (s.asksUndersampled taken))))

/-- The acts of one disable. -/
def disableDeeds (n : Nat) (e : Element) : List Deed :=
  .leaveMask e :: (List.replicate n (.closeDisabled e) ++ [.report e, .coverDisable e])

/-- The acts of the cause requests of a fire. -/
def State.askDeeds (s : State) (taken : List Element) : List Deed :=
  if s.cover.accounting = .active then .askCauses :: (s.sampledGroups taken).map .tellGap else []

/-- The acts of the fire's own lane. -/
def State.ownDeeds (s : State) (peaks : Eight Nat) (taken : List Element) : List Deed :=
  s.askDeeds taken ++ (s.third peaks taken).flatMap (disableDeeds s.tracker.chains.length)

/-- The acts of the tracker's lane of a fire. -/
def State.trackDeeds (s : State) : List Deed := List.replicate s.tracker.chains.length .closeAtFire ++ [.takeFlight]

theorem fireRequests_eq : ((elements.filter fun e => (setOf taken).get e).filterMap fun e => s.fireRequest s.odo.travel e) =
    causeRequests .undersampled s.currentX (s.asksUndersampled taken) := by
  rw [List.filterMap_filter, causeRequests]
  refine List.filterMap_congr fun e _ => ?_
  unfold State.fireRequest State.asksUndersampled
  rw [get_setOf]
  cases fired : taken.contains e with
  | false => rfl
  | true =>
    by_cases same : (s.sched.element.get e).undersampled =
        (fireElement s.odo.travel (s.elem e).pitch (s.sched.element.get e)).undersampled
    · simp [same]
    · simp [same]

theorem thirdBadFires_eq : s.thirdBadFires (setOf taken) peaks = s.third peaks taken := by
  refine List.filter_congr fun e _ => ?_
  rw [get_setOf, State.thirdBad, Bool.and_right_comm]
  congr 2
  unfold goodFire
  rw [Bool.decide_and]
  rfl

theorem fireLanes_named (reversal : Bool) :
    (s.fireLanes taken peaks).map (List.map Prod.snd) =
      [s.trackDeeds, s.ownDeeds peaks taken].map (List.map (Deed.act (s.fireEvent taken reversal))) := by
  have track : (s.trackFire (setOf taken) s.odo.travel).map Prod.snd =
      s.trackDeeds.map (Deed.act (s.fireEvent taken reversal)) := by
    simp only [State.trackFire, State.trackDeeds, List.map_append, List.map_replicate, List.map_cons, List.map_nil]
    rfl
  have disables (l : List Element) : (l.flatMap fun e => s.disableActs e).map Prod.snd =
      (l.flatMap (disableDeeds s.tracker.chains.length)).map (Deed.act (s.fireEvent taken reversal)) := by
    rw [List.map_flatMap, List.map_flatMap]
    refine List.flatMap_congr fun e _ => ?_
    simp only [State.disableActs, State.trackDisable, disableDeeds, List.map_cons, List.map_append, List.map_replicate,
      List.map_nil]
    rfl
  have asks : ((s.causeActs (causeRequests .undersampled s.currentX (s.asksUndersampled taken))).map
      fun act => ((.monitor .fire : Mark), act)).map Prod.snd =
      (s.askDeeds taken).map (Deed.act (s.fireEvent taken reversal)) := by
    rw [List.map_map, State.causeActs, State.askDeeds]
    split
    · rw [requestGroups_eq, List.map_cons, List.map_map, List.map_cons, List.map_map]
      rfl
    · rfl
  unfold State.fireLanes
  rw [List.map_cons, List.map_cons, List.map_nil, List.map_cons, List.map_cons, List.map_nil, track, fireRequests_eq,
    thirdBadFires_eq, List.map_append, disables, State.ownDeeds, List.map_append, asks]

/-! ## The shot latched (R22 to R24, R35) -/

theorem listenTicks_bounds {α : Type} (window : α → Nat) (l : List α) (m : Nat) :
    let top := l.foldl (fun m e => max m (window e)) m
    m ≤ top ∧ (∀ e ∈ l, window e ≤ top) ∧ (top = m ∨ ∃ e ∈ l, window e = top) := by
  induction l generalizing m with
  | nil => exact ⟨Nat.le_refl m, nofun, .inl rfl⟩
  | cons e l ih =>
    obtain ⟨above, all, reached⟩ := ih (max m (window e))
    refine ⟨(Nat.le_max_left ..).trans above, fun i mem => ?_, ?_⟩
    · rcases List.mem_cons.1 mem with rfl | mem
      · exact (Nat.le_max_right ..).trans above
      · exact all i mem
    · rcases reached with same | ⟨i, mem, same⟩
      · rcases Nat.le_total (window e) m with low | high
        · exact .inl (same.trans (Nat.max_eq_left low))
        · exact .inr ⟨e, List.mem_cons_self .., (same.trans (Nat.max_eq_right high)).symm⟩
      · exact .inr ⟨i, List.mem_cons_of_mem _ mem, same⟩

theorem goodFire_iff (peak : Nat) : goodFire peak = true ↔ 500000 ≤ peak ∧ peak ≤ 5000000 := by
  have bounds : goodFire peak = true ↔ Config.peakMin ≤ peak ∧ peak ≤ Config.peakMax := by simp [goodFire]
  exact bounds

/-- The shot in flight of a fire. -/
def State.firedShot (s : State) (peaks : Eight Nat) (taken : List Element) : Shot :=
  { set := setOf taken, listenLeft := s.listenTicks taken, travel := s.odo.travel, pos := s.odo.pos
    badFired := Eight.ofFn fun e => (setOf taken).get e && !goodFire (peaks.get e) }

/-- The scheduler and the pulsers once a shot has been latched, element by element. -/
theorem latchShot_get (e : Element) :
    (s.latchShot taken peaks).sched.element.get e =
      (if taken.contains e then fireElement s.odo.travel (s.elem e).pitch (s.sched.element.get e)
       else s.sched.element.get e) ∧
    (s.latchShot taken peaks).pulser.badFires.get e =
      if taken.contains e then
        if 500000 ≤ peaks.get e ∧ peaks.get e ≤ 5000000 then 0 else min (s.pulser.badFires.get e + 1) 3
      else s.pulser.badFires.get e := by
  have fires : (s.latchShot taken peaks).pulser.badFires.get e =
      if (setOf taken).get e then if goodFire (peaks.get e) then 0 else min (s.pulser.badFires.get e + 1) 3
      else s.pulser.badFires.get e := Eight.get_ofFn ..
  have marks : (s.latchShot taken peaks).sched.element.get e =
      if (setOf taken).get e then fireElement s.odo.travel (s.elem e).pitch (s.sched.element.get e)
      else s.sched.element.get e := Eight.get_ofFn ..
  rw [fires, marks, get_setOf]
  simp only [goodFire_iff, and_self]

/-! ## Orders of a fire -/

/-- A list of acts that a fire and the travel advance of its edge can be worked as: the fire's own lane in its order,
every closing as often as there are chains, and no more than one status and one advance besides. -/
structure FireOrder (s : State) (peaks : Eight Nat) (taken : List Element) (reversal : Bool) (besides : Chain → Bool)
    (ds : List Deed) : Prop where
  own : ds.filter Deed.own = (s.ownDeeds peaks taken).filter Deed.own
  extra : deedCost (ds.filter fun d => !d.own) ≤ 2
  flies : Deed.takeFlight ∈ ds
  closesFire : (List.replicate s.tracker.chains.length Deed.closeAtFire).Sublist ds
  closesDisabled : ∀ e, s.thirdBad peaks taken e = true →
    (List.replicate s.tracker.chains.length (Deed.closeDisabled e)).Sublist ds
  onlyDisabled : ∀ e, Deed.closeDisabled e ∈ ds → s.thirdBad peaks taken e = true
  advance : (Deed.closeAtAdvance ∉ ds ∧ ∀ c, besides c = false) ∨
    ((List.replicate s.tracker.chains.length Deed.closeAtAdvance).Sublist ds ∧ s.tracker.inFlight = none ∧
      ∀ c, besides c = (reversal || s.pastGap s.odo.travel c))

section
variable {reversal : Bool} {besides : Chain → Bool}

theorem mem_third (e : Element) : e ∈ s.third peaks taken ↔ s.thirdBad peaks taken e = true := by
  simp [State.third, mem_elements]

/-- The acts of the fire's own lane but for its closings. -/
theorem ownDeeds_filter : (s.ownDeeds peaks taken).filter Deed.own =
    s.askDeeds taken ++ (s.third peaks taken).flatMap fun e => [.leaveMask e, .report e, .coverDisable e] := by
  have asks : (s.askDeeds taken).filter Deed.own = s.askDeeds taken := by
    refine List.filter_eq_self.2 fun d mem => ?_
    unfold State.askDeeds at mem
    split at mem
    · rcases List.mem_cons.1 mem with rfl | mem
      · rfl
      · obtain ⟨g, -, rfl⟩ := List.mem_map.1 mem
        rfl
    · cases mem
  rw [State.ownDeeds, List.filter_append, asks, List.filter_flatMap]
  refine congrArg (s.askDeeds taken ++ ·) (List.flatMap_congr fun e _ => ?_)
  simp [disableDeeds, Deed.own, List.filter_cons, List.filter_append]

theorem leaveMask_mem (order : FireOrder s peaks taken reversal besides ds) (e : Element) :
    Deed.leaveMask e ∈ ds ↔ s.thirdBad peaks taken e = true := by
  have here : Deed.leaveMask e ∈ ds ↔ Deed.leaveMask e ∈ ds.filter Deed.own := by simp [Deed.own]
  have asks : Deed.leaveMask e ∉ s.askDeeds taken := by
    unfold State.askDeeds
    split <;> simp
  rw [here, order.own, ownDeeds_filter, List.mem_append, ← mem_third]
  simp [asks]

/-- The chains a fire closes in every order of its acts. -/
theorem fire_chains (order : FireOrder s peaks taken reversal besides ds) {b : State} (b_tracker : b.tracker = s.tracker)
    (b_config : b.control.config = s.control.config) :
    (runDeeds (s.fireEvent taken reversal) ds b).tracker.chains = s.tracker.chains.filter fun c =>
      !(besides c || s.thirdBad peaks taken c.element ||
        (taken.contains c.element && decide (1000 * (s.elem c.element).chainGap < s.odo.travel - c.lastTravel))) := by
  rw [← b_tracker]
  cases empty : b.tracker.chains with
  | nil => exact List.sublist_nil.1 (empty ▸ (runDeeds_thins (s.fireEvent taken reversal) ds (s := b)).fewer)
  | cons first others =>
    have mem_of {d : Deed} (enough : (List.replicate s.tracker.chains.length d).Sublist ds) : d ∈ ds := by
      refine enough.subset ?_
      rw [← b_tracker, empty]
      exact List.mem_cons_self ..
    have gap (c : Chain) : b.pastGap s.odo.travel c = s.pastGap s.odo.travel c := by
      unfold State.pastGap State.elem State.config
      rw [b_config]
    have fired (c : Chain) : (s.fireEvent taken reversal).set.get c.element = taken.contains c.element := get_setOf ..
    rw [← empty]
    refine runDeeds_chains (v := s.fireEvent taken reversal) ?flies ?complete _
      fun c => ⟨fun gone => ?picked, fun ⟨d, mem, may⟩ => ?gone⟩
    case flies =>
      rcases order.advance with ⟨absent, -⟩ | ⟨-, none, -⟩
      · exact .inr (.inr absent)
      · exact .inl (by rw [b_tracker, none])
    case complete =>
      intro c ⟨d, mem, may⟩
      rw [b_tracker]
      cases d with
      | closeAtAdvance =>
        obtain ⟨enough, -, -⟩ := order.advance.resolve_left fun ⟨absent, _⟩ => absent mem
        cases flying : (s.fireEvent taken reversal).set.get c.element with
        | false =>
          refine ⟨.closeAtAdvance, ?_, fun _ => rfl, enough⟩
          rw [Deed.mustClose, flying]
          exact may
        | true =>
          rcases Bool.or_eq_true_iff.1 may with back | past
          · exact ⟨.closeAtAdvance, Bool.or_eq_true_iff.2 (.inl back), fun _ => rfl, enough⟩
          · exact ⟨.closeAtFire, Bool.and_eq_true_iff.2 ⟨flying, past⟩, fun _ => rfl, order.closesFire⟩
      | closeAtFire => exact ⟨.closeAtFire, may, fun _ => rfl, order.closesFire⟩
      | closeDisabled e => exact ⟨.closeDisabled e, may, fun _ => rfl, order.closesDisabled e (order.onlyDisabled e mem)⟩
      | _ => cases may
    case picked =>
      rcases Bool.or_eq_true_iff.1 gone with early | late
      · rcases Bool.or_eq_true_iff.1 early with besides_c | third
        · rcases order.advance with ⟨-, nothing⟩ | ⟨enough, -, closes⟩
          · rw [nothing c] at besides_c
            cases besides_c
          · refine ⟨_, mem_of enough, ?_⟩
            rw [closes c, ← gap c] at besides_c
            exact besides_c
        · exact ⟨_, mem_of (order.closesDisabled _ third), beq_self_eq_true _⟩
      · refine ⟨_, mem_of order.closesFire, ?_⟩
        have both : (taken.contains c.element && s.pastGap s.odo.travel c) = true := late
        rw [← gap c, ← fired c] at both
        exact both
    case gone =>
      cases d with
      | closeAtAdvance =>
        obtain ⟨-, -, closes⟩ := order.advance.resolve_left fun ⟨absent, _⟩ => absent mem
        have closed : besides c = true := by
          rw [closes c, ← gap c]
          exact may
        rw [closed]
        rfl
      | closeAtFire =>
        have both : ((s.fireEvent taken reversal).set.get c.element && b.pastGap s.odo.travel c) = true := may
        rw [gap c, fired c] at both
        exact Bool.or_eq_true_iff.2 (.inr both)
      | closeDisabled e =>
        have third := order.onlyDisabled e mem
        rw [← eq_of_beq may] at third
        rw [third, Bool.or_true, Bool.true_or]
      | _ => cases may

end

end Sys2Proof.Machine
end

section
/-! SUPPORT. A fire as a whole: in every order of its acts the part is left as State.fires says. -/

namespace Sys2Proof.Machine

variable {s : State} {peaks : Eight Nat} {taken : List Element} {ds : List Deed} {reversal : Bool}
  {besides : Chain → Bool} {free : Nat}

/-- The part with its shot latched, before the other blocks take the fire. -/
def State.latched (s : State) (taken : List Element) (peaks : Eight Nat) (free : Nat) : State :=
  { s.latchShot taken peaks with free := free }

/-- The part after the acts of a fire. -/
def State.firedBy (s : State) (taken : List Element) (peaks : Eight Nat) (free : Nat) (reversal : Bool)
    (ds : List Deed) : State :=
  runDeeds (s.fireEvent taken reversal) ds (s.latched taken peaks free)

theorem firedBy_within : Within Footprint.disabling (s.latched taken peaks free) (s.firedBy taken peaks free reversal ds) :=
  runDeeds_within _ _

theorem firedBy_sched : (s.firedBy taken peaks free reversal ds).sched = (s.latchShot taken peaks).sched :=
  firedBy_within.sched rfl

theorem firedBy_pulser : (s.firedBy taken peaks free reversal ds).pulser = (s.latchShot taken peaks).pulser :=
  firedBy_within.pulser rfl

/-! ## The shot (R22, R23, R35, R60, R68, R72) -/

theorem firedShot_badFired (e : Element) : (s.firedShot peaks taken).badFired.get e = true ↔
    e ∈ taken ∧ ¬ (500000 ≤ peaks.get e ∧ peaks.get e ≤ 5000000) := by
  have marks : (s.firedShot peaks taken).badFired.get e = ((setOf taken).get e && !goodFire (peaks.get e)) :=
    Eight.get_ofFn ..
  rw [marks, get_setOf, ← goodFire_iff]
  simp

theorem firedBy_shoots (order : FireOrder s peaks taken reversal besides ds) (hv : s.pulser.hv = .ready)
    (fires : taken ≠ []) :
    s.shoots peaks taken besides (s.firedShot peaks taken) (s.firedBy taken peaks free reversal ds) := by
  have thins : Thins (s.latched taken peaks free) (s.firedBy taken peaks free reversal ds) := runDeeds_thins _ _
  have chains := fire_chains order (b := s.latched taken peaks free) rfl rfl
  have flies : (s.firedBy taken peaks free reversal ds).tracker.inFlight = some (setOf taken) :=
    runDeeds_takesFlight order.flies
  obtain ⟨-, below, reached⟩ := listenTicks_bounds (fun e => (s.elem e).window) taken 0
  unfold State.shoots
  rw [firedBy_sched, firedBy_pulser]
  refine ⟨rfl, hv, rfl, rfl, rfl, below, ?_, firedShot_badFired, fun e mem => ?_, fun e absent => ?_, fun e => ?_, ?_,
    thins.chainFull⟩
  · rcases reached with zero | ⟨e, mem, same⟩
    · obtain ⟨e, mem⟩ := List.exists_mem_of_ne_nil taken fires
      exact ⟨e, mem, .inr zero⟩
    · exact ⟨e, mem, .inl same⟩
  · obtain ⟨sched, fires⟩ := latchShot_get (s := s) (peaks := peaks) (taken := taken) e
    rw [if_pos (List.contains_iff_mem.2 mem)] at sched fires
    exact ⟨sched, fires⟩
  · obtain ⟨sched, fires⟩ := latchShot_get (s := s) (peaks := peaks) (taken := taken) e
    rw [if_neg (fun has => absent (List.contains_iff_mem.1 has))] at sched fires
    exact ⟨sched, fires⟩
  · have mask : (s.firedBy taken peaks free reversal ds).control.enableMask.get e = true ↔
        s.control.enableMask.get e = true ∧ Deed.leaveMask e ∉ ds := runDeeds_mask e
    rw [leaveMask_mem order] at mask
    rw [Bool.eq_iff_iff, mask, Bool.and_eq_true, Bool.not_eq_true', Bool.not_eq_true]
  · rw [thins.rest, flies]
    exact congrArg (fun l => { s.tracker with chains := l, inFlight := some (setOf taken) }) chains

/-! ## The coverage account (R24, R36, R102, R110, R170) -/

/-- What the fire asks of an element's causes is its mark as the fire leaves it. -/
theorem sampledCauses_eq (e : Element) : s.sampledCauses (s.firedBy taken peaks free reversal ds) e =
    (s.cover.element.get e).causes.asked .undersampled (s.asksUndersampled taken e) := by
  unfold State.sampledCauses State.asksUndersampled
  rw [firedBy_sched, (latchShot_get e).1]
  cases fired : taken.contains e with
  | false => simp [Causes.asked]
  | true =>
    by_cases same : (s.sched.element.get e).undersampled =
        (fireElement s.odo.travel (s.elem e).pitch (s.sched.element.get e)).undersampled
    · simp [same, Causes.asked]
    · simp [same, Ne.symm same, Causes.asked, Causes.put]

/-- The shares once the causes of a fire have been asked for. -/
def State.sampledShares (s : State) (taken : List Element) : Eight ElementCover :=
  Eight.ofFn fun e => (s.cover.shares.get e).asked .undersampled s.currentX (s.asksUndersampled taken e)

theorem third_nodup : (s.third peaks taken).Nodup := (List.nodup_finRange 8).filter _

/-- The shares once some elements have been disabled. -/
def disableShares (x : Int) (l : List Element) (w : Eight ElementCover) : Eight ElementCover :=
  l.foldl (fun w e => w.set e ((w.get e).disabled x)) w

theorem disableShares_get (x : Int) {l : List Element} (distinct : l.Nodup) (w : Eight ElementCover) (e : Element) :
    (disableShares x l w).get e = if e ∈ l then (w.get e).disabled x else w.get e := by
  induction l generalizing w with
  | nil => rfl
  | cons i l ih =>
    obtain ⟨fresh, distinct⟩ := List.nodup_cons.1 distinct
    have later : disableShares x (i :: l) w = disableShares x l (w.set i ((w.get i).disabled x)) := rfl
    rw [later, ih distinct]
    by_cases here : e = i
    · subst here
      rw [if_neg fresh, if_pos (List.mem_cons_self ..), Eight.get_set_same]
    · rw [Eight.get_set_other _ here]
      simp [here]

/-- The acts of the disables without their closings. -/
def disableOwn (l : List Element) : List Deed := l.flatMap fun e => [.leaveMask e, .report e, .coverDisable e]

theorem foldl_sharesAfter_disables (v : Event) (l : List Element) (w : Eight ElementCover) :
    (disableOwn l).foldl (Deed.sharesAfter v) w = disableShares v.x l w := by
  induction l generalizing w with
  | nil => rfl
  | cons e l ih => exact ih _

theorem foldl_sharesAfter_gaps (v : Event) (gs : List GapGroup) (w : Eight ElementCover) :
    (gs.map Deed.tellGap).foldl (Deed.sharesAfter v) w = w := by
  induction gs with
  | nil => rfl
  | cons g gs ih => exact ih

theorem firedBy_shares (order : FireOrder s peaks taken reversal besides ds) (active : s.cover.accounting = .active) :
    (s.firedBy taken peaks free reversal ds).cover.shares =
      disableShares s.currentX (s.third peaks taken) (s.sampledShares taken) := by
  have worked : (s.firedBy taken peaks free reversal ds).cover.shares =
      ds.foldl (Deed.sharesAfter (s.fireEvent taken reversal)) s.cover.shares := runDeeds_shares rfl active
  rw [worked, foldl_sharesAfter_own, order.own, ownDeeds_filter, State.askDeeds, if_pos active, List.cons_append,
    List.foldl_cons, List.foldl_append, foldl_sharesAfter_gaps]
  exact foldl_sharesAfter_disables ..

theorem firedBy_firesInto (order : FireOrder s peaks taken reversal besides ds) :
    s.firesInto (s.thirdBad peaks taken) (s.firedBy taken peaks free reversal ds) := by
  refine ⟨fun idle => ?_, fun active e => ?_⟩
  · refine runDeeds_idle (s := s.latched taken peaks free) idle fun asks => ?_
    have own : Deed.askCauses ∈ ds.filter Deed.own := List.mem_filter.2 ⟨asks, rfl⟩
    rw [order.own, ownDeeds_filter, State.askDeeds, if_neg (by rw [idle]; decide)] at own
    simp at own
  · have shares := congrArg (fun w : Eight ElementCover => w.get e) (firedBy_shares (free := free) order active)
    dsimp only at shares ⊢
    rw [disableShares_get _ third_nodup, shares_get, State.sampledShares, Eight.get_ofFn, shares_get] at shares
    simp only [mem_third] at shares
    rw [sampledCauses_eq]
    have whole (c : ElementCover) : c = { c.share with gapTravel := c.gapTravel } := rfl
    rw [whole ((s.firedBy taken peaks free reversal ds).cover.element.get e), shares]
    cases third : s.thirdBad peaks taken e with
    | false =>
      have stays : gapStartAfter s.currentX (gapStartAfter s.currentX (s.cover.element.get e).gapStart
          (s.cover.element.get e).causes
          ((s.cover.element.get e).causes.asked .undersampled (s.asksUndersampled taken e)))
          ((s.cover.element.get e).causes.asked .undersampled (s.asksUndersampled taken e))
          ((s.cover.element.get e).causes.asked .undersampled (s.asksUndersampled taken e)) =
          gapStartAfter s.currentX (s.cover.element.get e).gapStart (s.cover.element.get e).causes
            ((s.cover.element.get e).causes.asked .undersampled (s.asksUndersampled taken e)) := by
        rw [gapStartAfter.eq_def s.currentX (gapStartAfter ..)]
        cases ((s.cover.element.get e).causes.asked .undersampled (s.asksUndersampled taken e)).nonempty <;> rfl
      simp only [Bool.false_eq_true, if_false, stays]
      rfl
    | true =>
      have added := gapStartAfter_added s.currentX (gapStartAfter s.currentX (s.cover.element.get e).gapStart
          (s.cover.element.get e).causes
          ((s.cover.element.get e).causes.asked .undersampled (s.asksUndersampled taken e)))
          ((s.cover.element.get e).causes.asked .undersampled (s.asksUndersampled taken e)) .pulser
      simp only [if_true]
      exact (congrArg (fun g => ({ s.cover.element.get e with
        causes := { (s.cover.element.get e).causes.asked .undersampled (s.asksUndersampled taken e) with pulser := true }
        gapStart := g, run := none, backWall := .present
        gapTravel := ((s.firedBy taken peaks free reversal ds).cover.element.get e).gapTravel } : ElementCover))
        added.symm)

/-! ## Notices and records (R24, R36, R102, R103, R105, R170, R172) -/

/-- What the disable of an element that is the `p.2`-th record tells, as the shares of the account stand. -/
def State.disableTells (b : State) (x : Int) (w : Eight ElementCover) (p : Element × Nat) : List Frame :=
  faultNotice b.control.address (b.pulserRecord p.2 p.1) ::
    if decide (b.cover.accounting = .active) && !(w.get p.1).causes.nonempty then [b.oneNotice 4 x p.1 (false, x)] else []

theorem after_disable (v : Event) (b : State) (l : Ledger) (e : Element) :
    let l' := [Deed.leaveMask e, .report e, .coverDisable e].foldl (Ledger.after v b) l
    l'.records = l.records ++ [b.pulserRecord l.records.length e] ∧
      l'.frames = l.frames ++ b.disableTells v.x l.shares (e, l.records.length) ∧
      ∀ i, i ≠ e → l'.shares.get i = l.shares.get i := by
  simp only [List.foldl_cons, List.foldl_nil, Ledger.after, State.disableTells]
  cases accounting : b.cover.accounting with
  | idle => exact ⟨rfl, rfl, fun _ _ => rfl⟩
  | active =>
    refine ⟨rfl, ?_, fun i other => Eight.get_set_other l.shares other _⟩
    cases (l.shares.get e).causes.nonempty
    · exact List.append_assoc ..
    · exact List.append_nil _

theorem foldl_after_disables (v : Event) (b : State) {l : List Element} (distinct : l.Nodup) (led : Ledger) :
    let led' := (disableOwn l).foldl (Ledger.after v b) led
    led'.records = led.records ++ (l.zipIdx led.records.length).map (fun p => b.pulserRecord p.2 p.1) ∧
      led'.frames = led.frames ++ (l.zipIdx led.records.length).flatMap (b.disableTells v.x led.shares) := by
  induction l generalizing led with
  | nil => exact ⟨(List.append_nil _).symm, (List.append_nil _).symm⟩
  | cons e l ih =>
    obtain ⟨fresh, distinct⟩ := List.nodup_cons.1 distinct
    obtain ⟨records, frames, others⟩ := after_disable v b led e
    have split : disableOwn (e :: l) = [.leaveMask e, .report e, .coverDisable e] ++ disableOwn l := rfl
    simp only [split, List.foldl_append]
    generalize [Deed.leaveMask e, .report e, .coverDisable e].foldl (Ledger.after v b) led = led1 at records frames others
    obtain ⟨records', frames'⟩ := ih distinct led1
    refine ⟨?_, ?_⟩
    · rw [records', records, List.length_append, List.zipIdx_cons, List.map_cons, List.append_assoc]
      rfl
    · rw [frames', frames, records, List.length_append, List.zipIdx_cons, List.flatMap_cons, List.append_assoc]
      refine congrArg (fun fs => led.frames ++ (b.disableTells v.x led.shares (e, led.records.length) ++ fs))
        (List.flatMap_congr fun p mem => ?_)
      have other : p.1 ≠ e := fun same => fresh (same ▸ List.fst_mem_of_mem_zipIdx mem)
      rw [State.disableTells, State.disableTells, others p.1 other]

theorem foldl_after_gaps (v : Event) (b : State) (gs : List GapGroup) (led : Ledger) :
    (gs.map Deed.tellGap).foldl (Ledger.after v b) led = { led with frames := led.frames ++ gs.map b.gapNotice } := by
  induction gs generalizing led with
  | nil => simp
  | cons g gs ih =>
    rw [List.map_cons, List.foldl_cons, ih]
    simp [Ledger.after]

/-- The gaps that the marks of a fire open and close, in an active account. -/
def State.sampledChange (s : State) (taken : List Element) : GapChanges := fun e =>
  if s.cover.accounting = .active then s.cover.askedChange .undersampled s.currentX (s.asksUndersampled taken) e else none

/-- What the acts of the cause requests tell. -/
theorem foldl_after_asks (led : Ledger) (shares : led.shares = s.cover.shares)
    (frames : led.frames = []) :
    let led' := (s.askDeeds taken).foldl (Ledger.after (s.fireEvent taken reversal) (s.latched taken peaks free)) led
    led'.records = led.records ∧ led'.frames = s.noticesOf 3 s.currentX (s.sampledChange taken) ∧
      (s.cover.accounting = .active → led'.shares = s.sampledShares taken) := by
  cases accounting : s.cover.accounting with
  | idle =>
    have nothing : s.noticesOf 3 s.currentX (s.sampledChange taken) = [] :=
      noticesOf_nothing fun e => if_neg (by rw [accounting]; decide)
    rw [nothing, State.askDeeds, if_neg (by rw [accounting]; decide)]
    exact ⟨rfl, frames, nofun⟩
  | active =>
    have change : s.sampledChange taken = s.cover.askedChange .undersampled s.currentX (s.asksUndersampled taken) :=
      funext fun e => if_pos accounting
    rw [State.askDeeds, if_pos accounting, List.foldl_cons, foldl_after_gaps, change]
    refine ⟨rfl, ?_, fun _ => ?_⟩
    · simp only [Ledger.after, frames, List.nil_append]
      rfl
    · simp only [Ledger.after, shares]
      rfl

/-! ## Places for all of it -/

theorem length_third_le : (s.third peaks taken).length ≤ taken.length := by
  refine (List.Nodup.subperm third_nodup fun e mem => ?_).length_le
  have bad := (mem_third e).1 mem
  unfold State.thirdBad at bad
  simp only [Bool.and_eq_true] at bad
  exact List.contains_iff_mem.1 bad.1.1

theorem length_sampledGroups_le : (s.sampledGroups taken).length ≤ taken.length := by
  refine (length_groupChanges_le _).trans ?_
  rw [List.length_filterMap_eq_countP, List.countP_eq_length_filter]
  refine (List.Nodup.subperm ((List.nodup_finRange 8).filter _) fun e mem => ?_).length_le
  have notes : (s.cover.askedChange .undersampled s.currentX (s.asksUndersampled taken) e).isSome := by
    simpa [noteChange] using (List.mem_filter.1 mem).2
  by_contra absent
  have nothing : s.asksUndersampled taken e = none := if_neg fun both => absent (List.contains_iff_mem.1 both.1)
  rw [Coverage.askedChange, nothing, Causes.asked, gapChange_same] at notes
  cases notes

theorem deedCost_append (l m : List Deed) : deedCost (l ++ m) = deedCost l + deedCost m := by
  simp [deedCost]

theorem deedFiles_append (l m : List Deed) : deedFiles (l ++ m) = deedFiles l + deedFiles m := by
  simp [deedFiles]

theorem disableOwn_takes (l : List Element) :
    deedCost (disableOwn l) = 2 * l.length ∧ deedFiles (disableOwn l) = l.length := by
  induction l with
  | nil => exact ⟨rfl, rfl⟩
  | cons e l ih =>
    have split : disableOwn (e :: l) = [.leaveMask e, .report e, .coverDisable e] ++ disableOwn l := rfl
    have one : deedCost [.leaveMask e, .report e, .coverDisable e] = 2 ∧
      deedFiles [.leaveMask e, .report e, .coverDisable e] = 1 := ⟨rfl, rfl⟩
    rw [split, deedCost_append, deedFiles_append, ih.1, ih.2, one.1, one.2, List.length_cons]
    omega

theorem askDeeds_takes : deedCost (s.askDeeds taken) ≤ taken.length ∧ deedFiles (s.askDeeds taken) = 0 := by
  have gaps (gs : List GapGroup) : deedCost (gs.map Deed.tellGap) = gs.length ∧ deedFiles (gs.map Deed.tellGap) = 0 := by
    induction gs with
    | nil => exact ⟨rfl, rfl⟩
    | cons g gs ih =>
      rw [List.map_cons, ← List.singleton_append, deedCost_append, deedFiles_append, ih.1, ih.2, List.length_cons]
      exact ⟨Nat.add_comm 1 _, rfl⟩
  unfold State.askDeeds
  split
  · rw [← List.singleton_append, deedCost_append, deedFiles_append, (gaps _).1, (gaps _).2]
    refine ⟨?_, rfl⟩
    have few := length_sampledGroups_le (s := s) (taken := taken)
    have none : deedCost [.askCauses] = 0 := rfl
    omega
  · exact ⟨Nat.zero_le _, rfl⟩

theorem deedCost_split : deedCost ds = deedCost (ds.filter Deed.own) + deedCost (ds.filter fun d => !d.own) := by
  rw [← deedCost_append]
  exact ((List.filter_append_perm Deed.own ds).map Deed.cost).sum_eq.symm

theorem deedFiles_own : deedFiles ds = deedFiles (ds.filter Deed.own) := by
  induction ds with
  | nil => rfl
  | cons d ds ih =>
    rw [← List.singleton_append, deedFiles_append, ih, List.filter_append, deedFiles_append]
    cases d <;> rfl

/-- What the acts of a fire take of the transmit queue and of the fault file. -/
theorem fireOrder_takes (order : FireOrder s peaks taken reversal besides ds) :
    deedCost ds ≤ 3 * taken.length + 2 ∧ deedFiles ds = (s.third peaks taken).length := by
  have split : (s.ownDeeds peaks taken).filter Deed.own = s.askDeeds taken ++ disableOwn (s.third peaks taken) :=
    ownDeeds_filter
  have few := length_third_le (s := s) (peaks := peaks) (taken := taken)
  obtain ⟨asksCost, asksFiles⟩ := askDeeds_takes (s := s) (taken := taken)
  obtain ⟨disablesCost, disablesFiles⟩ := disableOwn_takes (s.third peaks taken)
  have extra := order.extra
  rw [deedCost_split, deedFiles_own, order.own, split, deedCost_append, deedFiles_append, asksFiles, disablesFiles]
  omega

/-! ## All of it -/

/-- Numbered in their order, distinct elements have their numbers by `idxOf`. -/
theorem zipIdx_of_nodup {l : List Element} (distinct : l.Nodup) (n : Nat) :
    l.zipIdx n = l.map fun e => (e, n + l.idxOf e) := by
  refine List.ext_getElem (by simp) fun k inside _ => ?_
  rw [List.getElem_zipIdx, List.getElem_map, distinct.idxOf_getElem]

theorem firedBy_firesNotices (order : FireOrder s peaks taken reversal besides ds) (run : s.inRun)
    (room : s.hasRoomFor (s.tracker.chains.length + 3 * taken.length + 2))
    (file : s.third peaks taken = [] ∨
      (s.control.faults.overflow = false ∧ s.control.faults.records.length + (s.third peaks taken).length ≤ 8)) :
    s.firesNotices (s.third peaks taken) (s.firedBy taken peaks free reversal ds) := by
  obtain ⟨cost, files⟩ := fireOrder_takes order
  let empty : Ledger := ⟨s.cover.shares, s.control.faults.records, []⟩
  have begun : Ledgered (s.fireEvent taken reversal) (s.latched taken peaks free) (s.latched taken peaks free) empty :=
    ⟨Within.refl _ _, rfl, fun _ => rfl, rfl, [], (Link.queueing_nil _).symm, rfl⟩
  have fits : (s.latched taken peaks free).fitsDeeds ds := by
    refine ⟨?_, ?_⟩
    · have places : s.link.txQueue.length + (s.tracker.chains.length + deedCost ds) ≤ Config.txCapacity := by
        unfold State.hasRoomFor at room
        omega
      exact places
    · rw [files]
      exact file.imp_left List.length_eq_zero_iff.2
  have ledgered := runDeeds_ledgered begun rfl run fits
  have split : (s.ownDeeds peaks taken).filter Deed.own = s.askDeeds taken ++ disableOwn (s.third peaks taken) :=
    ownDeeds_filter
  rw [foldl_after_own, order.own, split, List.foldl_append] at ledgered
  obtain ⟨askRecords, askFrames, askShares⟩ :=
    foldl_after_asks (s := s) (taken := taken) (reversal := reversal) (peaks := peaks) (free := free) empty rfl rfl
  generalize (s.askDeeds taken).foldl _ empty = led at ledgered askRecords askFrames askShares
  obtain ⟨records, frames⟩ :=
    foldl_after_disables (s.fireEvent taken reversal) (s.latched taken peaks free) (third_nodup (s := s) (peaks := peaks)
      (taken := taken)) led
  rw [askRecords] at records frames
  obtain ⟨new, link, told⟩ := ledgered.queued
  refine ⟨?_, new, s.noticesOf 3 s.currentX (s.sampledChange taken),
    fun e => faultNotice s.control.address
      (s.pulserRecord (s.control.faults.records.length + (s.third peaks taken).idxOf e) e),
    fun e => s.oneNotice 4 s.currentX e (false, s.currentX), link, ?_, ?_, fun k e at_k => ?_,
    fun e _ => oneNotice_gapNotices 4 s.currentX e (false, s.currentX)⟩
  · refine ledgered.faults.trans (congrArg (fun l => { s.control.faults with records := l }) (records.trans ?_))
    refine congrArg (s.control.faults.records ++ ·) (List.ext_getElem (by simp) fun k inside _ => ?_)
    rw [List.getElem_map, List.getElem_zipIdx, List.getElem_mapIdx, State.pulserRecord, ← Nat.add_assoc]
    rfl
  · refine told.trans (frames.trans ?_)
    rw [askFrames, zipIdx_of_nodup third_nodup, List.flatMap_map]
    refine congrArg (s.noticesOf 3 s.currentX (s.sampledChange taken) ++ ·) (List.flatMap_congr fun e _ => ?_)
    have opens : (decide (s.cover.accounting = .active) && !(led.shares.get e).causes.nonempty) =
        (decide (s.cover.accounting = .active) &&
          !(s.sampledCauses (s.firedBy taken peaks free reversal ds) e).nonempty) := by
      cases accounting : s.cover.accounting with
      | idle => rfl
      | active =>
        rw [askShares accounting, sampledCauses_eq, State.sampledShares, Eight.get_ofFn, shares_get]
        rfl
    simp only [← opens]
    rfl
  · have change : s.sampledChange taken = fun e =>
        if s.cover.accounting = .active then
          gapChange s.currentX (s.cover.element.get e).gapStart (s.cover.element.get e).causes
            (s.sampledCauses (s.firedBy taken peaks free reversal ds) e)
        else none := by
      funext e
      rw [sampledCauses_eq]
      rfl
    rw [← change]
    exact noticesOf_gapNotices ..
  · obtain ⟨inside, rfl⟩ := List.getElem?_eq_some_iff.1 at_k
    dsimp only
    rw [third_nodup.idxOf_getElem]
    have reported := faultNotice_reports s.control.address
      (s.pulserRecord (s.control.faults.records.length + k) (s.third peaks taken)[k])
    rw [State.pulserRecord, ← Nat.add_assoc] at reported
    rw [State.pulserRecord, ← Nat.add_assoc]
    exact reported

/-- A fire leaves what State.fires says, in every order of its acts. -/
theorem firedBy_fires (order : FireOrder s peaks taken reversal besides ds) (hv : s.pulser.hv = .ready) (run : s.inRun)
    (fires : taken ≠ []) :
    s.fires peaks taken besides (s.firedShot peaks taken) (s.firedBy taken peaks free reversal ds) :=
  ⟨firedBy_shoots order hv fires, firedBy_firesInto order, firedBy_firesNotices order run⟩

end Sys2Proof.Machine
end

section
/-! The fires without an edge: RECOVERY_END and SETTLE_COMPLETE (O15, O17). -/

namespace Sys2Proof.Machine

variable {s t : State} {peaks : Eight Nat} {taken : List Element} {ds : List Deed} {reversal : Bool}
  {besides : Chain → Bool}

/-! ## Every merge of a fire's lanes is an order of its acts -/

theorem mem_askDeeds {d : Deed} (mem : d ∈ s.askDeeds taken) : d.own = true := by
  unfold State.askDeeds at mem
  split at mem
  · rcases List.mem_cons.1 mem with rfl | mem
    · rfl
    · obtain ⟨g, -, rfl⟩ := List.mem_map.1 mem
      rfl
  · cases mem

/-- An act of the fire's own lane that is not of its own kind closes the chains of an element disabled. -/
theorem mem_ownDeeds {d : Deed} (mem : d ∈ s.ownDeeds peaks taken) (other : d.own = false) :
    ∃ e, d = .closeDisabled e ∧ s.thirdBad peaks taken e = true := by
  rcases List.mem_append.1 mem with asks | disables
  · rw [mem_askDeeds asks] at other
    cases other
  · obtain ⟨e, third, act⟩ := List.mem_flatMap.1 disables
    refine ⟨e, ?_, (mem_third e).1 third⟩
    simp only [disableDeeds, List.mem_cons, List.mem_append, List.mem_replicate, List.not_mem_nil, or_false] at act
    rcases act with rfl | ⟨-, rfl⟩ | rfl | rfl
    · cases other
    · rfl
    · cases other
    · cases other

theorem mem_trackDeeds {d : Deed} (mem : d ∈ s.trackDeeds) : d = .closeAtFire ∨ d = .takeFlight := by
  rcases List.mem_append.1 mem with closes | flies
  · exact .inl (List.eq_of_mem_replicate closes)
  · exact .inr (List.mem_singleton.1 flies)

theorem deedCost_zero {l : List Deed} (zero : ∀ d ∈ l, d.cost = 0) : deedCost l = 0 := by
  refine List.sum_eq_zero fun n mem => ?_
  obtain ⟨d, inside, rfl⟩ := List.mem_map.1 mem
  exact zero d inside

/-- What the others' acts take of the transmit queue. -/
theorem extra_of_lanes {others : List (List Deed)}
    (merged : Interleaves (others ++ [s.trackDeeds, s.ownDeeds peaks taken]) ds)
    (plain : ∀ d ∈ others.flatten, d.own = false ∧ ∀ e, d ≠ .closeDisabled e) :
    deedCost (ds.filter fun d => !d.own) = deedCost others.flatten := by
  have same : deedCost (ds.filter fun d => !d.own) =
      deedCost ((others ++ [s.trackDeeds, s.ownDeeds peaks taken]).flatten.filter fun d => !d.own) :=
    ((merged.perm.filter _).map Deed.cost).sum_eq
  have others_all : others.flatten.filter (fun d => !d.own) = others.flatten :=
    List.filter_eq_self.2 fun d mem => by rw [(plain d mem).1]; rfl
  have fire_none : deedCost ([s.trackDeeds, s.ownDeeds peaks taken].flatten.filter fun d => !d.own) = 0 := by
    refine deedCost_zero fun d mem => ?_
    obtain ⟨inside, other⟩ := List.mem_filter.1 mem
    rcases List.mem_append.1 (by simpa using inside) with here | here
    · rcases mem_trackDeeds here with rfl | rfl <;> rfl
    · obtain ⟨e, rfl, -⟩ := mem_ownDeeds here (by simpa using other)
      rfl
  rw [same, List.flatten_append, List.filter_append, others_all, deedCost_append, fire_none, Nat.add_zero]

/-- Merged with the lanes `others` of a travel advance, or with none, the lanes of a fire give an order of its acts. -/
theorem fireOrder_of_lanes {others : List (List Deed)}
    (merged : Interleaves (others ++ [s.trackDeeds, s.ownDeeds peaks taken]) ds)
    (plain : ∀ d ∈ others.flatten, d.own = false ∧ ∀ e, d ≠ .closeDisabled e) (few : deedCost others.flatten ≤ 2)
    (advance : (Deed.closeAtAdvance ∉ others.flatten ∧ ∀ c, besides c = false) ∨
      (List.replicate s.tracker.chains.length Deed.closeAtAdvance ∈ others ∧ s.tracker.inFlight = none ∧
        ∀ c, besides c = (reversal || s.pastGap s.odo.travel c))) :
    FireOrder s peaks taken reversal besides ds := by
  have perm := merged.perm
  rw [List.flatten_append] at perm
  have lanes : [s.trackDeeds, s.ownDeeds peaks taken].flatten = s.trackDeeds ++ s.ownDeeds peaks taken := by simp
  rw [lanes] at perm
  have mem_ds (d : Deed) : d ∈ ds ↔ d ∈ others.flatten ∨ d ∈ s.trackDeeds ∨ d ∈ s.ownDeeds peaks taken := by
    rw [perm.mem_iff, List.mem_append, List.mem_append]
  have track_at : (others ++ [s.trackDeeds, s.ownDeeds peaks taken])[others.length]? = some s.trackDeeds := by simp
  have own_at : (others ++ [s.trackDeeds, s.ownDeeds peaks taken])[others.length + 1]? =
      some (s.ownDeeds peaks taken) := by simp
  have track : s.trackDeeds.Sublist ds := merged.sublist track_at
  have own : (s.ownDeeds peaks taken).Sublist ds := merged.sublist own_at
  refine ⟨?own, ?extra, track.subset (by simp [State.trackDeeds]), (List.sublist_append_left ..).trans track,
    fun e third => ?closes, fun e mem => ?only, ?advance⟩
  case own =>
    have filtered := merged.filter Deed.own (others.length + 1) fun j l other at_j d mem => ?_
    · rw [filtered, List.getD, own_at]
      rfl
    · rcases Nat.lt_trichotomy j others.length with before | rfl | after
      · rw [List.getElem?_append_left before] at at_j
        exact (plain d (List.mem_flatten.2 ⟨l, List.mem_of_getElem? at_j, mem⟩)).1
      · rw [track_at] at at_j
        cases at_j
        rcases mem_trackDeeds mem with rfl | rfl <;> rfl
      · rw [List.getElem?_eq_none (by simp; omega)] at at_j
        cases at_j
  case extra => exact (extra_of_lanes merged plain).trans_le few
  case closes =>
    refine List.Sublist.trans ?_ own
    have lane : (disableDeeds s.tracker.chains.length e).Sublist
        ((s.third peaks taken).flatMap (disableDeeds s.tracker.chains.length)) := by
      rw [List.flatMap_def]
      exact List.sublist_flatten_of_mem (List.mem_map_of_mem ((mem_third e).2 third))
    exact ((List.sublist_append_left ..).trans (List.sublist_cons_self ..)).trans
      (lane.trans (List.sublist_append_right ..))
  case only =>
    rcases (mem_ds _).1 mem with here | here | here
    · exact absurd rfl ((plain _ here).2 e)
    · rcases mem_trackDeeds here with same | same <;> cases same
    · obtain ⟨i, same, third⟩ := mem_ownDeeds here rfl
      cases same
      exact third
  case advance =>
    rcases advance with ⟨absent, nothing⟩ | ⟨lane, advances⟩
    · refine .inl ⟨fun mem => ?_, nothing⟩
      rcases (mem_ds _).1 mem with here | here | here
      · exact absent here
      · rcases mem_trackDeeds here with same | same <;> cases same
      · obtain ⟨i, same, -⟩ := mem_ownDeeds here rfl
        cases same
    · obtain ⟨k, at_k⟩ := List.getElem?_of_mem lane
      have inside := (List.getElem?_eq_some_iff.1 at_k).1
      exact .inr ⟨merged.sublist (i := k) (by rw [List.getElem?_append_left inside, at_k]), advances⟩

/-- A fire without an edge works its acts in one such order. -/
theorem fire_firedBy (ord : Nat → Nat → Nat) : ∃ ds, FireOrder s peaks taken false (fun _ => false) ds ∧
    deedCost (ds.filter fun d => !d.own) = 0 ∧ s.fire ord taken peaks = s.firedBy taken peaks (s.free + 1) false ds := by
  obtain ⟨acts, merges, worked⟩ := inFreeOrder_merges (s.latchShot taken peaks) ord (s.fireLanes taken peaks)
  obtain ⟨ds, merged, rfl⟩ := interleaves_of_merges (Deed.act (s.fireEvent taken false)) merges _ (fireLanes_named false)
  refine ⟨ds, fireOrder_of_lanes (others := []) merged nofun (Nat.zero_le _) (.inl ⟨nofun, fun _ => rfl⟩),
    extra_of_lanes (others := []) merged nofun, ?_⟩
  rw [State.fire, worked, List.foldl_map]
  rfl

/-- A shot that fires without an edge. -/
theorem fire_fires {ord : Nat → Nat → Nat} (hv : s.pulser.hv = .ready) (run : s.inRun) (fires : taken ≠ []) :
    s.fires peaks taken (fun _ => false) (s.firedShot peaks taken) (s.fire ord taken peaks) := by
  obtain ⟨ds, order, -, worked⟩ := fire_firedBy (s := s) (peaks := peaks) (taken := taken) ord
  rw [worked]
  exact firedBy_fires order hv run fires

/-! ## The forming attempt (R20, R21) -/

/-- A forming attempt with an element due fires the shot formed. -/
theorem attempt_fire {ord : Nat → Nat → Nat} (sched : s.sched.state = .free) (running : s.control.state = .running)
    (hv : s.pulser.hv = .ready) {e : Element} (enabled : s.control.enableMask.get e = true)
    (due : (s.sched.element.get e).nextDue ≤ s.odo.travel) :
    takeShot s.station s.dueOrder ≠ [] ∧ s.attempt ord peaks = s.fire ord (takeShot s.station s.dueOrder) peaks := by
  have taken : takeShot s.station s.dueOrder ≠ [] := takeShot_ne_nil ((mem_dueOrder s e).2 ⟨enabled, due⟩)
  have formed : s.formed = takeShot s.station s.dueOrder := if_pos ⟨sched, running, hv⟩
  refine ⟨taken, ?_⟩
  rw [State.attempt, formed, if_neg (by rw [List.isEmpty_iff]; exact taken)]

/-- What holds of the part beside a fire. -/
theorem fire_beside (ord : Nat → Nat → Nat) :
    (s.fire ord taken peaks).odo = s.odo ∧ (s.fire ord taken peaks).control.state = s.control.state ∧
      s.sameSetup (s.fire ord taken peaks) ∧ s.sameOutside (s.fire ord taken peaks) := by
  obtain ⟨ds, -, -, worked⟩ := fire_firedBy (s := s) (peaks := peaks) (taken := taken) ord
  rw [worked]
  have within : Within Footprint.disabling (s.latched taken peaks (s.free + 1))
      (s.firedBy taken peaks (s.free + 1) false ds) := firedBy_within
  exact ⟨within.odo rfl, within.station_state rfl, within.sameSetup rfl, within.sameOutside ⟨rfl, rfl, rfl, rfl, rfl⟩⟩

/-- A forming attempt that fires, from a state `s` that differs from it in the scheduler's state and the high voltage at
most. -/
theorem attempt_fires {ord : Nat → Nat → Nat} (running : s.control.state = .running)
    {e : Element} (enabled : s.control.enableMask.get e = true) (due : (s.sched.element.get e).nextDue ≤ s.odo.travel) :
    let ready : State := { s with sched := { s.sched with state := .free }, pulser := { s.pulser with hv := .ready } }
    takeShot s.station s.dueOrder ≠ [] ∧
      s.fires peaks (takeShot s.station s.dueOrder) (fun _ => false) (s.firedShot peaks (takeShot s.station s.dueOrder))
        (ready.attempt ord peaks) ∧
      (ready.attempt ord peaks).odo = s.odo ∧ (ready.attempt ord peaks).control.state = .running ∧
      s.sameSetup (ready.attempt ord peaks) ∧ s.sameOutside (ready.attempt ord peaks) := by
  intro ready
  obtain ⟨taken, worked⟩ := attempt_fire (s := ready) (peaks := peaks) (ord := ord) rfl running rfl (e := e) enabled due
  obtain ⟨odo, state, setup, outside⟩ := fire_beside (s := ready) (taken := takeShot s.station s.dueOrder)
    (peaks := peaks) ord
  have run : ready.inRun := by
    have in_run : s.control.state.inRun = true := by rw [running]; rfl
    exact in_run
  have fired : ready.fires peaks (takeShot s.station s.dueOrder) (fun _ => false) _ (ready.fire ord _ peaks) :=
    fire_fires (ord := ord) (peaks := peaks) rfl run taken
  have worked' : ready.attempt ord peaks = ready.fire ord (takeShot s.station s.dueOrder) peaks := worked
  rw [worked']
  exact ⟨taken, fired, odo, state.trans running, setup, outside⟩

/-- Settles O15. -/
theorem recoveryEndFreesOrStops : Obligations.RecoveryEndFreesOrStops := by
  unfold Obligations.RecoveryEndFreesOrStops
  intro peaks n s recovering
  have worked : exec (.recoveryEnd peaks) s = .next (s.endRecovery Config.order peaks) := by
    have ends : s.onRecoveryEnd Config.order peaks = s.endRecovery Config.order peaks := by
      rw [State.onRecoveryEnd, recovering]
    exact congrArg Host.Outcome.next ends
  rw [worked, State.endRecovery]
  refine ⟨fun stops => ?_, fun lifted moving => ?_, fun running off => ?_, fun running ready nothing => ?_,
    fun running ready e0 enabled due => ?_⟩
  · rw [if_neg, if_pos stops]
    · rfl
    · rintro ⟨running, -⟩
      rcases stops with still | ⟨lifted, -⟩
      · rw [running] at still; cases still
      · rw [running] at lifted; cases lifted
  · rw [if_neg (by rw [lifted]; nofun), if_neg (by rw [lifted, moving]; nofun)]
    rfl
  · rw [if_neg (fun both => off both.2), if_neg (by rw [running]; nofun)]
    rfl
  · rw [if_pos ⟨running, ready⟩, attempt_nothing (formed_eq_nil (by exact nothing))]
    rfl
  · have same : s.setSched .free =
        { s with sched := { s.sched with state := .free }, pulser := { s.pulser with hv := .ready } } := by
      rw [← ready]
      rfl
    obtain ⟨taken, fired, odo, state, setup, outside⟩ :=
      attempt_fires (s := s) (peaks := peaks) (ord := Config.order) running enabled due
    rw [if_pos ⟨running, ready⟩, same]
    exact ⟨taken, _, _, rfl, fired, odo, state, setup, outside⟩

/-- Settles O17. -/
theorem dueElementsFireAtTheSettle : Obligations.DueElementsFireAtTheSettle := by
  unfold Obligations.DueElementsFireAtTheSettle
  intro peaks n s hv settling running e0 enabled due
  have worked : exec (.settleComplete peaks) s = .next (s.endSettle Config.order peaks) :=
    congrArg Host.Outcome.next (onSettleComplete_settling hv)
  obtain ⟨taken, fired, odo, state, setup, outside⟩ :=
    attempt_fires (s := s) (peaks := peaks) (ord := Config.order) running enabled due
  rw [worked, State.endSettle, if_pos ⟨settling, running⟩]
  exact ⟨taken, _, _, rfl, fired, odo, state, setup, outside⟩

end Sys2Proof.Machine
end

section
/-! The lift at the station: entry to LIFTED, the return to RUNNING with its gaps told and, where one is due, its shot
(O13). -/

namespace Sys2Proof.Machine

variable {s t r : State} {peaks : Eight Nat} {taken : List Element} {ds : List Deed} {d : Deed} {v : Event}
  {besides : Chain → Bool}

/-! ## The cause LIFTED leaves (R104, R105, R111) -/

theorem lowered_put (c : Causes) : c.put .lifted false = c.lowered := rfl

/-- LIFTED was an element's last cause exactly when its gap closes as LIFTED leaves. -/
theorem lowered_closes (c : Causes) :
    (c.nonempty && !c.lowered.nonempty) = true ↔ c.lifted = true ∧ c.lowered.nonempty = false := by
  obtain ⟨a, b, d, e, f⟩ := c
  revert a b d e f
  decide

/-- An element that does not carry LIFTED loses nothing. -/
theorem lowered_same {c : Causes} (absent : c.lifted = false) : c.lowered = c := by
  rw [Causes.lowered, ← absent]

theorem asked_lowered (x : Int) (c : ElementCover) :
    c.asked .lifted x (if c.causes.lifted then some false else none) =
      { c with
        causes := c.causes.lowered
        gapStart := if c.causes.lifted = true ∧ c.causes.lowered.nonempty = false then none else c.gapStart } := by
  cases carried : c.causes.lifted with
  | false =>
    rw [if_neg (by decide), asked_none, lowered_same carried, if_neg (by rintro ⟨h, -⟩; cases h)]
  | true =>
    have start := gapStartAfter_taken x c.gapStart c.causes .lifted
    simp only [lowered_put, lowered_closes, carried] at start
    rw [if_pos rfl, ElementCover.asked, Causes.asked, lowered_put, start]
    simp only [true_and]

/-- The cause LIFTED leaves every element: the account without it, and the GAP CLOSE notices of the gaps that close. -/
theorem coverLowered_notices : ∃ gaps, s.closesLifts gaps ∧ gaps.length ≤ 8 ∧
    s.coverLowered = ({ s with cover := s.cover.lowered } : State).appendAll gaps := by
  let change : GapChanges := fun e =>
    if s.cover.accounting = .active ∧ (s.cover.element.get e).causes.lifted = true ∧
        (s.cover.element.get e).causes.lowered.nonempty = false then
      some (true, (s.cover.element.get e).gapStart.getD s.currentX)
    else none
  refine ⟨s.noticesOf 1 s.currentX change, noticesOf_gapNotices .., length_noticesOf_le .., ?_⟩
  rw [State.coverLowered, State.requestForAll]
  cases accounting : s.cover.accounting with
  | idle =>
    have nothing : ∀ e, change e = none := fun e => if_neg (by rw [accounting]; rintro ⟨active, -⟩; cases active)
    rw [requestCauses_idle accounting, noticesOf_nothing nothing, Coverage.lowered, if_neg (by rw [accounting]; decide)]
    rfl
  | active =>
    let ask : Element → Option Bool := fun e => if (s.cover.element.get e).causes.lifted then some false else none
    have asks : (fun e => if (Eight.ofFn fun e => (s.cover.element.get e).causes.lifted).get e then some false else none) =
        ask := funext fun e => by rw [Eight.get_ofFn]
    have changes : s.cover.askedChange .lifted s.currentX ask = change := by
      funext e
      cases carried : (s.cover.element.get e).causes.lifted with
      | false =>
        have none_asked : ask e = none := if_neg (by rw [carried]; decide)
        rw [Coverage.askedChange, none_asked, Causes.asked, gapChange_same]
        exact (if_neg fun ⟨_, lifted, _⟩ => by rw [carried] at lifted; cases lifted).symm
      | true =>
        have asked : ask e = some false := if_pos carried
        rw [Coverage.askedChange, asked, Causes.asked, gapChange_taken]
        simp only [lowered_put, lowered_closes, change, accounting, true_and]
    have account : s.cover.asked .lifted s.currentX ask = s.cover.lowered := by
      rw [Coverage.asked, Coverage.lowered, if_pos accounting]
      simp only [ask, asked_lowered]
    rw [requests_of_mask, asks, requestCauses_active accounting, State.askedNotices, changes, account]
    rfl

/-! ## Places a fire takes of the transmit queue, whatever the fault file holds -/

/-- The chains and the queued notices together. -/
def State.places (s : State) : Nat := s.tracker.chains.length + s.link.txQueue.length

theorem append_length (f : Frame) : (s.append f).link.txQueue.length ≤ s.link.txQueue.length + 1 := by
  by_cases room : s.hasRoomFor 1
  · rw [append_fits f room, Link.queueing_txQueue, List.length_append]
    exact Nat.le_refl _
  · have full : 24 ≤ s.link.txQueue.length := by
      have cap : Config.txCapacity = 24 := rfl
      simp only [State.hasRoomFor] at room
      omega
    rw [append_dropped f full]
    exact Nat.le_succ _

theorem append_places (f : Frame) : (s.append f).places ≤ s.places + 1 := by
  have chains : (s.append f).tracker = s.tracker := (append_within ..).tracker rfl
  rw [State.places, State.places, chains, Nat.add_assoc]
  exact Nat.add_le_add_left (append_length f) _

theorem closeNext_places (pick : Chain → Bool) : (s.closeNext pick).places ≤ s.places := by
  cases found : s.tracker.chains.find? pick with
  | none => rw [closeNext_none found]
  | some c =>
    have less := List.length_eraseP_of_mem (List.mem_of_find?_eq_some found) (List.find?_some found)
    have some := List.length_pos_of_mem (List.mem_of_find?_eq_some found)
    have judged : (s.judgeChain c).link.txQueue.length ≤ s.link.txQueue.length + 1 := by
      rcases judgeChain_judgedOnce (s := s) c with ⟨j, judged⟩ | ⟨j, p, f, -, -, -, -, judged⟩
      · rw [judged]
        exact Nat.le_succ _
      · rw [judged]
        exact append_length f
    have whole : (s.closeNext pick).places =
        (s.tracker.chains.eraseP pick).length + (s.judgeChain c).link.txQueue.length := by rw [closeNext_some found]; rfl
    rw [whole, State.places]
    omega

theorem reportFault_places (k : FaultKind) (a : BitVec 4) : (s.reportFault k a).places ≤ s.places + 1 := by
  cases overflow : s.control.faults.overflow with
  | true =>
    rw [reportFault_overflowed s k a overflow]
    exact Nat.le_succ _
  | false =>
    by_cases records : s.control.faults.records.length < Config.faultCapacity
    · rw [reportFault_room s k a overflow records]
      exact append_places _
    · rw [reportFault_full s k a overflow records]
      exact append_places _

theorem act_places (d : Deed) : (d.act v s).places ≤ s.places + d.cost := by
  cases d with
  | closeAtAdvance => exact closeNext_places _
  | closeAtFire => exact closeNext_places _
  | closeDisabled e => exact closeNext_places _
  | tellStatus => exact append_places _
  | tellGap g => exact append_places _
  | pairAdvance => exact Nat.le_refl _
  | takeFlight => exact Nat.le_refl _
  | leaveMask e => exact Nat.le_refl _
  | report e => exact reportFault_places ..
  | askCauses =>
    have asked : Deed.askCauses.act v s = { s with cover := s.cover.asked .undersampled v.x v.ask } := applyRequests_eq
    rw [asked]
    exact Nat.le_refl _
  | coverDisable e =>
    have worked : (Deed.coverDisable e).act v s = _ := coverDisable_eq e
    rw [worked]
    cases s.cover.opensGap e
    · exact Nat.le_succ _
    · exact append_places (s := { s with cover := s.cover.disabled e s.currentX }) _
  | coverAdvance =>
    have act : Deed.coverAdvance.act v s = s.coverAdvance v.travel := rfl
    rw [act]
    cases accounting : s.cover.accounting with
    | idle =>
      rw [coverAdvance_idle accounting]
      exact Nat.le_succ _
    | active =>
      by_cases past : s.cover.spanStart + s.spanMicros ≤ v.travel
      · rw [coverAdvance_past accounting past]
        exact append_places (s := s.spanCounted v.travel) _
      · rw [coverAdvance_inside accounting (by exact Nat.not_le.1 past)]
        exact Nat.le_succ _

theorem runDeeds_places (ds : List Deed) : (runDeeds v ds s).places ≤ s.places + deedCost ds := by
  induction ds generalizing s with
  | nil => exact Nat.le_refl _
  | cons d ds ih =>
    have sum : deedCost (d :: ds) = d.cost + deedCost ds := rfl
    rw [runDeeds_cons, sum, ← Nat.add_assoc]
    exact ih.trans (Nat.add_le_add_right (act_places d) _)

/-! ## A fire looks at a part of the state only -/

theorem dueOrder_of_same (travel : r.odo.travel = s.odo.travel) (mask : r.control.enableMask = s.control.enableMask)
    (element : r.sched.element = s.sched.element) : r.dueOrder = s.dueOrder := by
  have due : r.due = s.due := by
    funext e
    rw [State.due, State.due, State.nextDue, State.nextDue, travel, mask, element]
  have order : r.nextDue = s.nextDue := by
    funext e
    rw [State.nextDue, State.nextDue, element]
  rw [State.dueOrder, State.dueOrder, due, order]

/-- The part `s` agrees with `r` in what a fire reads of it. -/
structure FiresLike (r s : State) : Prop where
  pos : r.odo.pos = s.odo.pos
  travel : r.odo.travel = s.odo.travel
  element : r.sched.element = s.sched.element
  badFires : r.pulser.badFires = s.pulser.badFires
  tracker : r.tracker = s.tracker
  cover : r.cover = s.cover
  mask : r.control.enableMask = s.control.enableMask
  chainFull : r.control.episodes.chainFull = s.control.episodes.chainFull
  config : r.control.config = s.control.config
  rail : r.control.rail = s.control.rail
  address : r.control.address = s.control.address
  runNumber : r.control.runNumber = s.control.runNumber

theorem FiresLike.currentX (like : FiresLike r s) : r.currentX = s.currentX := by
  unfold State.currentX State.station State.config
  rw [like.pos, like.config]

theorem FiresLike.thirdBad (like : FiresLike r s) : r.thirdBad peaks taken = s.thirdBad peaks taken := by
  funext e
  rw [State.thirdBad, State.thirdBad, like.badFires]

theorem FiresLike.shoots (like : FiresLike r s) {shot : Shot} (shoots : r.shoots peaks taken besides shot t) :
    s.shoots peaks taken besides shot t := by
  have elem : r.elem = s.elem := by
    funext e
    unfold State.elem State.config
    rw [like.config]
  simp only [State.shoots, like.pos, like.travel, like.element, like.badFires, like.tracker, like.mask, like.chainFull,
    elem, like.thirdBad] at shoots ⊢
  exact shoots

theorem FiresLike.sampledCauses (like : FiresLike r s) : r.sampledCauses t = s.sampledCauses t := by
  funext e
  unfold State.sampledCauses
  rw [like.cover, like.element]

theorem FiresLike.fires (like : FiresLike r s) {shot : Shot}
    (same : s.hasRoomFor (s.tracker.chains.length + 3 * taken.length + 2) →
      r.link = s.link ∧ r.control.faults = s.control.faults)
    (fired : r.fires peaks taken besides shot t) : s.fires peaks taken besides shot t := by
  obtain ⟨shoots, into, notices⟩ := fired
  refine ⟨like.shoots shoots, ?_, fun room file => ?_⟩
  · unfold State.firesInto at into ⊢
    rw [like.thirdBad, like.sampledCauses, like.currentX, like.cover] at into
    exact into
  · obtain ⟨link, faults⟩ := same room
    have told := notices (by rw [State.hasRoomFor, link, like.tracker]; exact room) (by rw [like.thirdBad, faults]; exact file)
    unfold State.firesNotices at told ⊢
    rw [like.thirdBad, like.sampledCauses, like.currentX, like.cover, link, faults, like.address, like.runNumber] at told
    exact told

/-! ## A fire and the STATUS after it -/

/-- An order of a fire's acts with a STATUS after it. -/
theorem FireOrder.told (order : FireOrder s peaks taken false besides ds)
    (extra : deedCost (ds.filter fun d => !d.own) = 0) :
    FireOrder s peaks taken false besides (ds ++ [.tellStatus]) where
  own := by
    rw [List.filter_append, order.own]
    exact List.append_nil _
  extra := by
    rw [List.filter_append, deedCost_append, extra]
    exact Nat.le_succ 1
  flies := List.mem_append_left _ order.flies
  closesFire := order.closesFire.trans (List.sublist_append_left ..)
  closesDisabled := fun e third => (order.closesDisabled e third).trans (List.sublist_append_left ..)
  onlyDisabled := fun e mem => order.onlyDisabled e (by simpa using mem)
  advance := by
    refine order.advance.imp (And.imp_left fun absent mem => absent (by simpa using mem)) fun ⟨enough, rest⟩ => ?_
    exact ⟨enough.trans (List.sublist_append_left ..), rest⟩

/-- A shot that fires without an edge, with STATUS page 0 after it. -/
theorem fire_status {ord : Nat → Nat → Nat} (hv : s.pulser.hv = .ready) (running : s.control.state = .running)
    (fires : taken ≠ []) :
    let u := (s.fire ord taken peaks).queueStatus 0
    s.fires peaks taken (fun _ => false) (s.firedShot peaks taken) u ∧
      (s.hasRoomFor (s.tracker.chains.length + 3 * taken.length + 2) →
        ∃ f, u.link.txQueue.getLast? = some f ∧ f.showsState .running) ∧
      Within Footprint.disabling (s.latched taken peaks (s.free + 1)) u := by
  intro u
  have run : s.inRun := by rw [State.inRun, running]; rfl
  obtain ⟨ds, order, extra, worked⟩ := fire_firedBy (s := s) (peaks := peaks) (taken := taken) ord
  have u_eq : u = s.firedBy taken peaks (s.free + 1) false (ds ++ [.tellStatus]) := by
    rw [State.firedBy, runDeeds_append]
    show (s.fire ord taken peaks).queueStatus 0 = _
    rw [worked]
    rfl
  refine ⟨?_, fun room => ?_, ?_⟩
  · rw [u_eq]
    exact firedBy_fires (order.told extra) hv run fires
  · have places : (s.firedBy taken peaks (s.free + 1) false ds).places ≤ s.places + deedCost ds := runDeeds_places ds
    have cost : deedCost ds + 1 ≤ 3 * taken.length + 2 := by
      obtain ⟨cost, -⟩ := fireOrder_takes (order.told extra)
      rw [deedCost_append] at cost
      exact cost
    have one : (s.fire ord taken peaks).hasRoomFor 1 := by
      rw [worked]
      simp only [State.hasRoomFor, State.places] at room places ⊢
      omega
    refine ⟨(s.fire ord taken peaks).statusNotice 0, ?_, ?_⟩
    · show ((s.fire ord taken peaks).queueStatus 0).link.txQueue.getLast? = _
      rw [queueStatus_fits _ one, Link.queueing_txQueue, List.getLast?_concat]
    · have shows := statusNotice_showsState (s.fire ord taken peaks)
      rw [(fire_beside ord).2.1, running] at shows
      exact shows
  · rw [u_eq]
    exact firedBy_within

/-! ## LIFT_RECOGNISED (R12, R13, R30, R31, R166) -/

/-- The part once a level has been recognised. -/
def State.recognised (lift : LiftState) (s : State) : State := { s with odo := { s.odo with liftHeld := none, lift := lift } }

/-- The part once LIFTED has been left, but for its notices and for the shot. -/
def State.leftLift (s : State) : State :=
  { s with
    control := { s.control with state := .running, liftFromStill := false }
    cover := s.cover.lowered }

/-- What a recognition of the level timed does. -/
theorem recognise_eq {lift : LiftState} (level : liftStateOf s.station.liftActive s.odo.liftLevel = lift) :
    (lift = s.odo.lift → s.recogniseLift Config.order peaks = s.recognised lift) ∧
      (lift ≠ s.odo.lift → s.recogniseLift Config.order peaks = (s.recognised lift).tellLift Config.order peaks lift) := by
  subst level
  exact ⟨fun same => if_pos same, fun other => if_neg other⟩

/-- A recognition that station control does not act on. -/
theorem tellLift_ignored {ord : Nat → Nat → Nat} {lift : LiftState}
    (ignored : (lift = .raised ∧ s.control.state ≠ .running ∧ s.control.state ≠ .still) ∨
      (lift = .lowered ∧ s.control.state ≠ .lifted)) : s.tellLift ord peaks lift = s := by
  rcases ignored with ⟨rfl, not_running, not_still⟩ | ⟨rfl, not_lifted⟩
  · cases state : s.control.state with
    | running => exact absurd state not_running
    | still => exact absurd state not_still
    | _ =>
      unfold State.tellLift
      rw [state]
  · cases state : s.control.state with
    | lifted => exact absurd state not_lifted
    | _ =>
      unfold State.tellLift
      rw [state]

theorem tellLift_raised {ord : Nat → Nat → Nat} (run : s.control.state = .running ∨ s.control.state = .still) :
    s.tellLift ord peaks .raised = s.enterLifted := by
  unfold State.tellLift
  rcases run with state | state <;> rw [state]

theorem tellLift_lowered {ord : Nat → Nat → Nat} (lifted : s.control.state = .lifted) :
    s.tellLift ord peaks .lowered = s.leaveLifted ord peaks := by
  unfold State.tellLift
  rw [lifted]

/-- The scheduler told of RUNNING after notices, or before them. -/
theorem schedRunning_appendAll (fs : List Frame) : (s.appendAll fs).schedRunning = s.schedRunning.appendAll fs := by
  induction fs generalizing s with
  | nil => rfl
  | cons f fs ih =>
    rw [appendAll_cons, appendAll_cons, ih]
    refine congrArg (fun u : State => u.appendAll fs) ?_
    rw [schedRunning_eq, schedRunning_eq]
    by_cases room : s.hasRoomFor 1
    · rw [append_fits f room, append_fits f (by exact room)]
    · have full : 24 ≤ s.link.txQueue.length := by
        have cap : Config.txCapacity = 24 := rfl
        simp only [State.hasRoomFor] at room
        omega
      rw [append_dropped f full, append_dropped f (by exact full)]
      rfl

/-- The part once the scheduler has been told of RUNNING as well. -/
def State.returned (s : State) : State :=
  { s.leftLift with
    sched := { s.sched with state :=
      if s.sched.state = .off then if s.pulser.hv = .ready then .free else .settling else s.sched.state }
    pulser := { s.pulser with hv := if s.sched.state = .off ∧ s.pulser.hv = .off then .settling 0 else s.pulser.hv } }

/-- LIFTED left: the gaps that close are told, then comes the forming attempt, and STATUS page 0 comes last. -/
theorem leaveLifted_eq {ord : Nat → Nat → Nat} : ∃ gaps, s.closesLifts gaps ∧ gaps.length ≤ 8 ∧
    s.leaveLifted ord peaks = ((s.returned.appendAll gaps).attempt ord peaks).queueStatus 0 := by
  let entered : State := { s with control := { s.control with state := .running, liftFromStill := false } }
  obtain ⟨gaps, closes, few, worked⟩ := coverLowered_notices (s := entered)
  refine ⟨gaps, closes, few, ?_⟩
  show ((entered.coverLowered.schedRunning).attempt ord peaks).queueStatus 0 = _
  rw [worked, schedRunning_appendAll, schedRunning_eq]
  rfl

/-- With nothing due where a shot could form, LIFTED is left without one. -/
theorem returned_formed {gaps : List Frame} (nothing : s.sched.state = .off ∨ s.sched.state = .free →
    s.pulser.hv = .ready → s.nothingDue s.odo.travel) : (s.returned.appendAll gaps).formed = [] := by
  have within := (appendAll_told (s := s.returned) gaps).within
  by_cases forms : s.returned.sched.state = .free ∧ s.returned.pulser.hv = .ready
  · obtain ⟨sched, hv⟩ := forms
    have ready : s.pulser.hv = .ready := by
      have kept : (if s.sched.state = .off ∧ s.pulser.hv = .off then HighVoltage.settling 0 else s.pulser.hv) = .ready := hv
      split at kept
      · cases kept
      · exact kept
    have free : s.sched.state = .off ∨ s.sched.state = .free := by
      by_cases off : s.sched.state = .off
      · exact .inl off
      · exact .inr ((if_neg off).symm.trans sched)
    have none_due := nothing free ready
    refine formed_eq_nil fun e enabled => ?_
    rw [within.mask rfl] at enabled
    rw [within.odo rfl, within.sched rfl]
    exact none_due e enabled
  · rw [State.formed, within.sched rfl, within.pulser rfl]
    exact if_neg fun ⟨sched, _, hv⟩ => forms ⟨sched, hv⟩

/-- What LIFTED leaves of an element's share of an active account. -/
theorem lifting_account (active : s.cover.accounting = .active) (e : Element) :
    s.lifting.cover.element.get e = { s.cover.element.get e with
      run := none
      backWall := .present
      causes :=
        if s.control.enableMask.get e then { (s.cover.element.get e).causes with lifted := true }
        else (s.cover.element.get e).causes
      gapStart :=
        if s.control.enableMask.get e = true ∧ (s.cover.element.get e).causes.nonempty = false then some s.currentX
        else (s.cover.element.get e).gapStart } := by
  rw [show s.lifting.cover = s.cover.abandoned .lifted s.currentX s.control.enableMask from rfl, abandoned_get active]
  cases on : s.control.enableMask.get e with
  | true => cases carries : (s.cover.element.get e).causes.nonempty <;> simp [Causes.put]
  | false => simp

theorem sameSetup_trans {u : State} (h : s.sameSetup t) (k : t.sameSetup u) : s.sameSetup u := by
  obtain ⟨address, rail, cause, config, mask, offset, image⟩ := h
  obtain ⟨address', rail', cause', config', mask', offset', image'⟩ := k
  exact ⟨address'.trans address, rail'.trans rail, cause'.trans cause, config'.trans config, mask'.trans mask,
    offset'.trans offset, image'.trans image⟩

theorem sameOutside_trans {u : State} (h : s.sameOutside t) (k : t.sameOutside u) : s.sameOutside u := by
  obtain ⟨pins, loader, hold, pending, rx, rxQueue, counts⟩ := h
  obtain ⟨pins', loader', hold', pending', rx', rxQueue', counts'⟩ := k
  exact ⟨pins'.trans pins, loader'.trans loader, hold'.trans hold, pending'.trans pending, rx'.trans rx,
    rxQueue'.trans rxQueue, counts'.trans counts⟩

/-- The part as a fire on the return to RUNNING finds it, the gaps told. -/
def State.loweredWith (gaps : List Frame) (s : State) : State :=
  { s with
    control := { s.control with state := .running, liftFromStill := false }
    cover := s.cover.lowered
    link := s.link.queueing gaps }

/-- With an element due for a scheduler that is FREE or becomes it, LIFTED is left with a shot. -/
theorem leaveLifted_fires {ord : Nat → Nat → Nat} (sched : s.sched.state = .off ∨ s.sched.state = .free)
    (ready : s.pulser.hv = .ready) {e : Element} (enabled : s.control.enableMask.get e = true)
    (due : (s.sched.element.get e).nextDue ≤ s.odo.travel) :
    let taken := takeShot s.station s.dueOrder
    let t := s.leaveLifted ord peaks
    ∃ gaps, s.closesLifts gaps ∧ taken ≠ [] ∧
      (s.loweredWith gaps).fires peaks taken (fun _ => false)
        ((s.returned.appendAll gaps).firedShot peaks taken) t ∧
      ((s.loweredWith gaps).hasRoomFor (s.tracker.chains.length + 3 * taken.length + 2) →
        ∃ f, t.link.txQueue.getLast? = some f ∧ f.showsState .running) ∧
      t.control.state = .running ∧ t.control.liftFromStill = false ∧ t.odo = s.odo ∧ s.sameSetup t ∧ s.sameOutside t := by
  intro taken t
  obtain ⟨gaps, closes, few, left⟩ := leaveLifted_eq (s := s) (peaks := peaks) (ord := ord)
  let l := s.returned
  let r := l.appendAll gaps
  have told : Told l r := appendAll_told gaps
  have within := told.within
  have l_free : l.sched.state = .free := by
    have settled : l.sched.state = if s.sched.state = .off then if s.pulser.hv = .ready then .free else .settling
        else s.sched.state := rfl
    rw [settled, if_pos ready]
    rcases sched with off | free
    · exact if_pos off
    · rw [free]
      rfl
  have l_ready : l.pulser.hv = .ready := (if_neg fun ⟨_, off⟩ => nomatch ready.symm.trans off).trans ready
  have r_free : r.sched.state = .free := by rw [within.sched rfl, l_free]
  have r_ready : r.pulser.hv = .ready := by rw [within.pulser rfl, l_ready]
  have r_running : r.control.state = .running := within.station_state rfl
  have r_order : r.dueOrder = s.dueOrder :=
    dueOrder_of_same ((congrArg Odometer.travel (within.odo rfl)).trans rfl) (within.mask rfl)
      ((congrArg Scheduler.element (within.sched rfl)).trans rfl)
  have r_station : r.station = s.station := by
    unfold State.station State.config
    rw [within.setup_config rfl]
    rfl
  obtain ⟨some, worked⟩ := attempt_fire (s := r) (peaks := peaks) (ord := ord) r_free r_running r_ready (e := e)
    (by rw [within.mask rfl]; exact enabled) (by rw [within.sched rfl, within.odo rfl]; exact due)
  rw [r_order, r_station] at some worked
  obtain ⟨fires, status, beside⟩ := fire_status (s := r) (peaks := peaks) (ord := ord) r_ready r_running some
  rw [show l.appendAll gaps = r from rfl, worked] at left
  rw [← left] at fires status beside
  have like : FiresLike r (s.loweredWith gaps) :=
    { pos := (congrArg Odometer.pos (within.odo rfl)).trans rfl
      travel := (congrArg Odometer.travel (within.odo rfl)).trans rfl
      element := (congrArg Scheduler.element (within.sched rfl)).trans rfl
      badFires := (congrArg Pulser.badFires (within.pulser rfl)).trans rfl
      tracker := within.tracker rfl
      cover := within.cover rfl
      mask := within.mask rfl
      chainFull := told.chainFull
      config := within.setup_config rfl
      rail := within.setup_rail rfl
      address := within.setup_address rfl
      runNumber := within.run_runNumber rfl }
  have fitting {n : Nat} (room : (s.loweredWith gaps).hasRoomFor n) : r = { l with link := l.link.queueing gaps } := by
    refine appendAll_fits gaps ?_
    have both : s.link.txQueue.length + gaps.length + n ≤ Config.txCapacity := by
      simpa only [State.hasRoomFor, State.loweredWith, Link.queueing_txQueue, List.length_append] using room
    exact Nat.le_trans (Nat.le_add_right ..) both
  refine ⟨gaps, closes, some, like.fires (fun room => ?_) fires, fun room => status ?_,
    (beside.station_state rfl).trans r_running, (beside.station_liftFromStill rfl).trans (within.station_liftFromStill rfl),
    (beside.odo rfl).trans (within.odo rfl), sameSetup_trans (t := r) (within.sameSetup rfl) (beside.sameSetup rfl),
    sameOutside_trans (t := r) (within.sameOutside ⟨rfl, rfl, rfl, rfl, rfl⟩)
      (beside.sameOutside ⟨rfl, rfl, rfl, rfl, rfl⟩)⟩
  · rw [fitting room]
    exact ⟨rfl, rfl⟩
  · rw [fitting room]
    exact room

/-- Settles O13. -/
theorem liftRecognitionsMoveTheStation : Obligations.LiftRecognitionsMoveTheStation := by
  unfold Obligations.LiftRecognitionsMoveTheStation
  intro peaks s held active timing lift
  have worked : exec (.liftRecognised peaks) s = .next (s.recogniseLift Config.order peaks) := by
    have on : (s.odo.active && s.odo.liftHeld.isSome) = true := by rw [active, timing]; rfl
    exact congrArg Host.Outcome.next (if_pos on)
  obtain ⟨same, changed⟩ := recognise_eq (s := s) (peaks := peaks) (lift := lift) rfl
  have opposite {l k : LiftState} (here : lift = l) (there : s.odo.lift = k) (apart : l ≠ k) :
      s.recogniseLift Config.order peaks = (s.recognised l).tellLift Config.order peaks l := by
    rw [changed (by rw [here, there]; exact apart), here]
  rw [worked]
  refine ⟨fun kept => ?_, fun ignored => ?_, fun raised lowered run => ?_, fun lowered raised lifted nothing => ?_,
    fun lowered raised lifted sched ready e0 enabled due => ?_⟩
  · rw [same kept, State.recognised, kept]
  · by_cases kept : lift = s.odo.lift
    · rw [same kept]
      rfl
    · rw [changed kept, tellLift_ignored (by exact ignored)]
      rfl
  · rw [opposite raised lowered nofun, tellLift_raised (by exact run)]
    obtain ⟨gaps, f, opens, short, shows, worked⟩ := enterLifted_eq (s.recognised .raised)
    have told := appendAll_told (s := (s.recognised .raised).lifting) (gaps ++ [f])
    have within := told.within
    rw [← worked] at told within
    refine ⟨_, rfl, within.odo rfl, within.station_state rfl, ?_, within.pulser rfl, ?_, ?_, ?_, ?_, ?_, within.tracker rfl,
      within.judge rfl, within.pair rfl, within.mask rfl, ?_, within.sameSetup rfl,
      within.sameOutside ⟨rfl, rfl, rfl, rfl, rfl⟩⟩
    · rw [within.station_liftFromStill rfl]
      exact beq_iff_eq
    · rw [within.sched rfl]
      rfl
    · intro stops
      rw [within.sched rfl]
      exact if_pos stops
    · intro not_free not_settling
      rw [within.sched rfl]
      exact if_neg (not_or.2 ⟨not_free, not_settling⟩)
    · intro idle
      rw [within.cover rfl]
      exact abandoned_idle idle ..
    · intro account e
      rw [within.cover rfl]
      exact lifting_account (s := s.recognised .raised) account e
    · intro room
      have fits : (s.recognised .raised).lifting.hasRoomFor (gaps ++ [f]).length := by
        simp only [State.hasRoomFor, List.length_append, List.length_singleton] at room ⊢
        exact Nat.le_trans (Nat.add_le_add_left (by omega) _) room
      refine ⟨gaps, f, opens, shows, ?_⟩
      rw [worked, appendAll_fits _ fits]
      exact ⟨rfl, rfl⟩
  · rw [opposite lowered raised nofun, tellLift_lowered (by exact lifted)]
    obtain ⟨gaps, closes, few, left⟩ := leaveLifted_eq (s := s.recognised .lowered) (peaks := peaks) (ord := Config.order)
    let r := (s.recognised .lowered).returned.appendAll gaps
    have quiet : r.attempt Config.order peaks = r := attempt_nothing (returned_formed (by exact nothing))
    have shows := statusNotice_showsState r
    have state : r.control.state = .running := (appendAll_told _).within.station_state rfl
    rw [state] at shows
    have worked : (s.recognised .lowered).leaveLifted Config.order peaks =
        (s.recognised .lowered).returned.appendAll (gaps ++ [r.statusNotice 0]) := by
      rw [left, show (s.recognised .lowered).returned.appendAll gaps = r from rfl, quiet, appendAll_append]
      rfl
    have told := appendAll_told (s := (s.recognised .lowered).returned) (gaps ++ [r.statusNotice 0])
    have within := told.within
    rw [← worked] at within
    refine ⟨_, rfl, within.odo rfl, within.station_state rfl, within.station_liftFromStill rfl, within.sched rfl,
      within.pulser rfl, within.cover rfl, within.tracker rfl, within.judge rfl, within.pair rfl, within.mask rfl,
      fun room => ⟨gaps, r.statusNotice 0, closes, shows, ?_⟩, within.sameSetup rfl,
      within.sameOutside ⟨rfl, rfl, rfl, rfl, rfl⟩⟩
    have fits : (s.recognised .lowered).returned.hasRoomFor (gaps ++ [r.statusNotice 0]).length := by
      simp only [State.hasRoomFor, List.length_append, List.length_singleton] at room ⊢
      exact Nat.le_trans (Nat.add_le_add_left (by omega) _) room
    rw [worked, appendAll_fits _ fits]
    exact ⟨rfl, rfl⟩
  · rw [opposite lowered raised nofun, tellLift_lowered (by exact lifted)]
    obtain ⟨gaps, closes, taken, fires, status, state, still, odo, setup, outside⟩ :=
      leaveLifted_fires (s := s.recognised .lowered) (peaks := peaks) (ord := Config.order) sched ready (e := e0) enabled due
    have like : FiresLike ((s.recognised .lowered).loweredWith gaps) (s.loweredWith gaps) :=
      ⟨rfl, rfl, rfl, rfl, rfl, rfl, rfl, rfl, rfl, rfl, rfl, rfl⟩
    exact ⟨taken, gaps, _, _, closes, rfl, ⟨like.fires (fun _ => ⟨rfl, rfl⟩) fires, status⟩, state, still, odo, setup,
      outside⟩

end Sys2Proof.Machine
end

section
/-! The end of a shot's listening: what the chain tracker and the coverage monitor make of the results, in every order
between the two (O14). -/

namespace Sys2Proof.Machine

variable {s t t' : State} {r : ShotResult} {x : Echo}

/-! ## What the chain tracker sees (R61, R63 to R68) -/

/-- What the chain tracker's acts read and write: its table and the CHAIN_FULL mark, and the configuration, read alone. -/
def State.table (s : State) : Tracker × Bool × Option Configuration :=
  (s.tracker, s.control.episodes.chainFull, s.control.config)

theorem table_eq : t.table = t'.table ↔ t.tracker = t'.tracker ∧
    t.control.episodes.chainFull = t'.control.episodes.chainFull ∧ t.control.config = t'.control.config := by
  simp [State.table]

theorem told_table (told : Told s t) : t.table = s.table :=
  table_eq.2 ⟨told.within.tracker rfl, told.chainFull, told.within.setup_config rfl⟩

theorem elem_of_config (same : t.control.config = t'.control.config) (e : Element) : t.elem e = t'.elem e := by
  unfold State.elem State.config
  rw [same]

theorem reportFault_table (k : FaultKind) (a : BitVec 4) : (s.reportFault k a).table = s.table :=
  table_eq.2 ⟨(reportFault_within ..).tracker rfl, reportFault_chainFull .., (reportFault_within ..).setup_config rfl⟩

theorem startChain_table (same : t.table = t'.table) : (t.startChain r x).table = (t'.startChain r x).table := by
  obtain ⟨tracker, mark, config⟩ := table_eq.1 same
  by_cases room : t.tracker.chains.length < Config.chainCapacity
  · rw [startChain_room _ _ _ room, startChain_room _ _ _ (tracker ▸ room)]
    exact table_eq.2 ⟨by rw [State.modTracker, State.modTracker, tracker], mark, config⟩
  · have full := Nat.not_lt.1 room
    cases marked : t.control.episodes.chainFull with
    | true =>
      rw [startChain_full_marked _ _ _ full marked, startChain_full_marked _ _ _ (tracker ▸ full) (mark ▸ marked)]
      exact table_eq.2 ⟨by rw [State.modTracker, State.modTracker, tracker], mark, config⟩
    | false =>
      rw [startChain_full_clear _ _ _ full marked, startChain_full_clear _ _ _ (tracker ▸ full) (mark ▸ marked), reportFault_table,
        reportFault_table]
      exact table_eq.2 ⟨congrArg (fun k : Tracker => { k with dropped := bump k.dropped }) tracker, rfl, config⟩

theorem assignEcho_table (open_ : List Open) (same : t.table = t'.table) :
    (t.assignEcho r x open_).1 = (t'.assignEcho r x open_).1 ∧
      (t.assignEcho r x open_).2.table = (t'.assignEcho r x open_).2.table := by
  obtain ⟨tracker, mark, config⟩ := table_eq.1 same
  rw [State.assignEcho, State.assignEcho, elem_of_config config]
  split
  · exact ⟨rfl, table_eq.2 ⟨by rw [State.modTracker, State.modTracker, tracker], mark, config⟩⟩
  · exact ⟨rfl, startChain_table same⟩

theorem assignResult_table (same : t.table = t'.table) : (t.assignResult r).table = (t'.assignResult r).table := by
  obtain ⟨tracker, -, config⟩ := table_eq.1 same
  have opens : t.openFor r = t'.openFor r := by
    rw [State.openFor, State.openFor, tracker, elem_of_config config]
  have echoes (xs : List Echo) (open_ : List Open) (u u' : State) (seen : u.table = u'.table) :
      (xs.foldl (fun (acc : List Open × State) x => acc.2.assignEcho r x acc.1) (open_, u)).2.table =
        (xs.foldl (fun (acc : List Open × State) x => acc.2.assignEcho r x acc.1) (open_, u')).2.table := by
    induction xs generalizing open_ u u' with
    | nil => exact seen
    | cons x xs ih =>
      obtain ⟨unclaimed, table⟩ := assignEcho_table (x := x) (r := r) open_ seen
      rw [List.foldl_cons, List.foldl_cons, show u.assignEcho r x open_ = ((u.assignEcho r x open_).1, _) from rfl,
        show u'.assignEcho r x open_ = ((u'.assignEcho r x open_).1, _) from rfl, unclaimed]
      exact ih _ _ _ table
  rw [State.assignResult, State.assignResult, opens]
  exact echoes _ _ _ _ same

theorem closeNext_table {pick pick' : Chain → Bool} (picks : pick = pick') (same : t.table = t'.table) :
    (t.closeNext pick).table = (t'.closeNext pick').table := by
  subst picks
  obtain ⟨tracker, mark, config⟩ := table_eq.1 same
  cases found : t.tracker.chains.find? pick with
  | none => rw [closeNext_none found, closeNext_none (tracker ▸ found), same]
  | some c =>
    rw [closeNext_some found, closeNext_some (tracker ▸ found)]
    refine table_eq.2 ⟨congrArg (fun k : Tracker => { k with chains := k.chains.eraseP pick }) tracker, rfl, ?_⟩
    exact ((judgeChain_within t c).setup_config rfl).trans (config.trans ((judgeChain_within t' c).setup_config rfl).symm)

theorem closeOverdue_table (set : ElementSet) (travel : Nat) (same : t.table = t'.table) :
    (t.closeOverdue set travel).table = (t'.closeOverdue set travel).table := by
  refine closeNext_table (funext fun c => ?_) same
  rw [State.gapExceeded, State.gapExceeded, State.gapLimit, State.gapLimit, elem_of_config (table_eq.1 same).2.2]

theorem trackListeningEnd_table (set : ElementSet) (rs : List ShotResult) (act : Act)
    (mem : act ∈ s.trackListeningEnd set rs) (same : t.table = t'.table) : (act.2 t).table = (act.2 t').table := by
  rcases List.mem_append.1 mem with here | closing
  · rcases List.mem_append.1 here with result | flight
    · obtain ⟨r, -, rfl⟩ := List.mem_map.1 result
      exact assignResult_table same
    · rw [List.mem_singleton.1 flight]
      obtain ⟨tracker, mark, config⟩ := table_eq.1 same
      exact table_eq.2 ⟨congrArg (fun k : Tracker => { k with inFlight := none }) tracker, mark, config⟩
  · rw [List.eq_of_mem_replicate closing]
    exact closeOverdue_table set _ same

/-! ## What the coverage monitor sees (R97, R99, R100, R108) -/

/-- What the coverage monitor's acts of a shot read and write: its account, and the configuration, read alone. -/
def State.account (s : State) : Coverage × Option Configuration := (s.cover, s.control.config)

theorem account_eq : t.account = t'.account ↔ t.cover = t'.cover ∧ t.control.config = t'.control.config := by
  simp [State.account]

/-- An element's share after the coupling of a shot at car position `x`, the coupling run being `limit` µm. -/
def ElementCover.coupled (limit : Nat) (x : Int) (r : ShotResult) (c : ElementCover) : ElementCover :=
  match c.coupling, r.found, c.run with
  | .coupled, true, _ => { c with run := none }
  | .coupled, false, none => { c with run := some ⟨r.travel, x⟩ }
  | .coupled, false, some run =>
    if limit ≤ r.travel - run.travel then
      ElementCover.asked .uncoupled run.x (some true) { c with coupling := .uncoupled, run := none, backWall := .present }
    else c
  | .uncoupled, false, _ => { c with run := none }
  | .uncoupled, true, none => { c with run := some ⟨r.travel, x⟩ }
  | .uncoupled, true, some run =>
    if limit ≤ r.travel - run.travel then
      ElementCover.asked .uncoupled run.x (some false) { c with coupling := .coupled, run := none }
    else c

/-- The coupling of a shot changes the account of its element, and tells of a gap that opens or closes. -/
theorem coupleShot_told (active : s.cover.accounting = .active) :
    Told
      { s with
        cover := s.cover.withElement r.element
          ((s.cover.element.get r.element).coupled s.couplingLimit (s.shotX r.pos) r) }
      (s.coupleShot r) := by
  have stays : Told { s with cover := s.cover.withElement r.element (s.cover.element.get r.element) } s := by
    rw [show s.cover.withElement r.element (s.cover.element.get r.element) = s.cover from
      congrArg (fun v => { s.cover with element := v }) (Eight.set_same _ _)]
    exact Told.refl s
  have asks (d : ElementCover) (add : Bool) (x : Int) :
      Told { s with cover := s.cover.withElement r.element (d.asked .uncoupled x (some add)) }
        (({ s with cover := s.cover.withElement r.element d } : State).requestCauses
          [⟨r.element, .uncoupled, add, x, x⟩]) := by
    rw [requestAfter active]
    exact appendAll_told _
  unfold ElementCover.coupled
  cases coupling : (s.cover.element.get r.element).coupling with
  | coupled =>
    rw [coupleShot_coupled coupling, State.coupledShot]
    cases found : r.found with
    | true =>
      rw [if_pos rfl, modElementCover_eq, coupling]
      exact Told.refl _
    | false =>
      rw [if_neg (by decide)]
      cases running : (s.cover.element.get r.element).run with
      | none =>
        dsimp only
        rw [modElementCover_eq, coupling]
        exact Told.refl _
      | some run =>
        dsimp only
        by_cases lasted : s.couplingLimit ≤ r.travel - run.travel
        · rw [if_pos lasted, if_pos lasted, modElementCover_eq]
          exact asks ..
        · rw [if_neg lasted, if_neg lasted]
          exact stays
  | uncoupled =>
    rw [coupleShot_uncoupled coupling, State.uncoupledShot]
    cases found : r.found with
    | false =>
      rw [if_neg (by decide), modElementCover_eq, coupling]
      exact Told.refl _
    | true =>
      rw [if_pos rfl]
      cases running : (s.cover.element.get r.element).run with
      | none =>
        dsimp only
        rw [modElementCover_eq, coupling]
        exact Told.refl _
      | some run =>
        dsimp only
        by_cases lasted : s.couplingLimit ≤ r.travel - run.travel
        · rw [if_pos lasted, if_pos lasted, modElementCover_eq]
          exact asks ..
        · rw [if_neg lasted, if_neg lasted]
          exact stays

theorem coupleShot_account (active : s.cover.accounting = .active) :
    (s.coupleShot r).cover = s.cover.withElement r.element
      ((s.cover.element.get r.element).coupled s.couplingLimit (s.shotX r.pos) r) :=
  (coupleShot_told active).within.cover rfl

/-- An element's share after the back-wall finding of a shot at car position `x`. -/
def ElementCover.walled (x : Int) (r : ShotResult) (c : ElementCover) : ElementCover :=
  match r.backWall, c.backWall with
  | some false, .present => if r.found && c.coupling == .coupled then { c with backWall := .lost x } else c
  | some true, .lost _ => { c with backWall := .present }
  | _, _ => c

theorem backWallShot_account :
    (s.backWallShot r).cover = s.cover.withElement r.element
      ((s.cover.element.get r.element).walled (s.shotX r.pos) r) := by
  have stays : s.cover = s.cover.withElement r.element (s.cover.element.get r.element) :=
    congrArg (fun v => { s.cover with element := v }) (Eight.set_same _ _).symm
  unfold ElementCover.walled
  rw [State.backWallShot]
  cases finding : r.backWall with
  | none => exact stays
  | some there =>
    cases wall : (s.cover.element.get r.element).backWall with
    | present =>
      cases there with
      | true => exact stays
      | false =>
        dsimp only
        split
        · rfl
        · exact stays
    | lost startX =>
      cases there with
      | true => exact (judgeLoss_within ..).cover rfl
      | false => exact stays

theorem shotX_of_config (same : t.control.config = t'.control.config) (p : FinePos) : t.shotX p = t'.shotX p := by
  unfold State.shotX State.station State.config
  rw [same]

theorem couplingLimit_of_config (same : t.control.config = t'.control.config) : t.couplingLimit = t'.couplingLimit := by
  unfold State.couplingLimit State.station State.config
  rw [same]

theorem coverCoupling_account (same : t.account = t'.account) : (t.coverCoupling r).account = (t'.coverCoupling r).account := by
  obtain ⟨cover, config⟩ := account_eq.1 same
  rw [State.coverCoupling, State.coverCoupling, cover]
  cases accounting : t'.cover.accounting with
  | idle => exact same
  | active =>
    rw [if_pos rfl, if_pos rfl]
    refine account_eq.2 ⟨?_, ?_⟩
    · rw [coupleShot_account (cover ▸ accounting), coupleShot_account accounting, cover, couplingLimit_of_config config,
        shotX_of_config config]
    · exact ((coupleShot_within t r).setup_config rfl).trans (config.trans ((coupleShot_within t' r).setup_config rfl).symm)

theorem coverBackWall_account (same : t.account = t'.account) : (t.coverBackWall r).account = (t'.coverBackWall r).account := by
  obtain ⟨cover, config⟩ := account_eq.1 same
  rw [State.coverBackWall, State.coverBackWall, cover]
  cases accounting : t'.cover.accounting with
  | idle => exact same
  | active =>
    rw [if_pos rfl, if_pos rfl]
    refine account_eq.2 ⟨?_, ?_⟩
    · rw [backWallShot_account, backWallShot_account, cover, shotX_of_config config]
    · exact ((backWallShot_within t r).setup_config rfl).trans
        (config.trans ((backWallShot_within t' r).setup_config rfl).symm)

theorem coverResults_account (rs : List ShotResult) (act : Act) (mem : act ∈ coverResults rs)
    (same : t.account = t'.account) : (act.2 t).account = (act.2 t').account := by
  obtain ⟨r, -, here⟩ := List.mem_flatMap.1 mem
  rcases List.mem_cons.1 here with rfl | here
  · exact coverCoupling_account same
  · rw [List.mem_singleton.1 here]
    exact coverBackWall_account same

/-! ## Each leaves what the other sees -/

theorem judgedOnce_chainFull (judged : s.judgedOnce t) :
    t.control.episodes.chainFull = s.control.episodes.chainFull := by
  rcases judged with ⟨j, rfl⟩ | ⟨j, p, f, -, -, -, -, rfl⟩
  · rfl
  · exact (append_told _).chainFull

theorem backWallShot_chainFull :
    (s.backWallShot r).control.episodes.chainFull = s.control.episodes.chainFull := by
  rw [State.backWallShot]
  split
  · split <;> rfl
  · exact (judgedOnce_chainFull (judgeLoss_judgedOnce ..)).trans rfl
  · rfl
  · rfl
  · rfl

theorem coverResults_table (rs : List ShotResult) (act : Act) (mem : act ∈ coverResults rs) :
    (act.2 t).table = t.table := by
  have within := coverResults_within rs act mem t
  refine table_eq.2 ⟨within.tracker rfl, ?_, within.setup_config rfl⟩
  obtain ⟨r, -, here⟩ := List.mem_flatMap.1 mem
  rcases List.mem_cons.1 here with rfl | here
  · show (t.coverCoupling r).control.episodes.chainFull = _
    rw [State.coverCoupling]
    split
    · next active => exact (coupleShot_told active).chainFull
    · rfl
  · rw [List.mem_singleton.1 here]
    show (t.coverBackWall r).control.episodes.chainFull = _
    rw [State.coverBackWall]
    split
    · exact backWallShot_chainFull
    · rfl

theorem trackListeningEnd_account (set : ElementSet) (rs : List ShotResult) (act : Act)
    (mem : act ∈ s.trackListeningEnd set rs) : (act.2 t).account = t.account := by
  have within := trackListeningEnd_within s set rs act mem t
  exact account_eq.2 ⟨within.cover rfl, within.setup_config rfl⟩

/-! ## The excess echoes stand (R52, R82) -/

theorem numberIndication_excess (e : Element) (x : Int) (body : Body) :
    (s.numberIndication e x body).judge.excess = s.judge.excess := by
  by_cases inside : s.judge.excludes x = true
  · rw [numberIndication_suppressed e x body inside]
  · rw [numberIndication_taken e x body inside, (pairOwn_within ..).judge rfl]

theorem judgeChain_excess (c : Chain) : (s.judgeChain c).judge.excess = s.judge.excess := by
  by_cases reported : (s.elem c.element).minLength ≤ c.count ∧ (s.elem c.element).reportLevel ≤ c.peak
  · rw [judgeChain_reported reported.1 reported.2, numberIndication_excess]
  · rw [judgeChain_rejected (by omega)]

theorem judgeLoss_excess (e : Element) (startX endX : Int) :
    (s.judgeLoss e startX endX).judge.excess = s.judge.excess := by
  unfold State.judgeLoss
  dsimp only
  split
  · exact numberIndication_excess ..
  · rfl

theorem closeNext_excess (pick : Chain → Bool) : (s.closeNext pick).judge.excess = s.judge.excess := by
  cases found : s.tracker.chains.find? pick with
  | none => rw [closeNext_none found]
  | some c =>
    rw [closeNext_some found]
    exact judgeChain_excess c

theorem startChain_judge : (s.startChain r x).judge = s.judge := by
  rw [State.startChain]
  split
  · rfl
  · exact (reportChainFull_within ..).judge rfl

theorem assignEcho_judge (open_ : List Open) : (s.assignEcho r x open_).2.judge = s.judge := by
  rw [State.assignEcho]
  split
  · rfl
  · exact startChain_judge

theorem assignResult_judge : (s.assignResult r).judge = s.judge := by
  have echoes (xs : List Echo) (acc : List Open × State) :
      (xs.foldl (fun (acc : List Open × State) x => acc.2.assignEcho r x acc.1) acc).2.judge = acc.2.judge := by
    induction xs generalizing acc with
    | nil => rfl
    | cons x xs ih => exact (ih _).trans (assignEcho_judge acc.1)
  exact echoes r.echoes _

theorem trackListeningEnd_excess (set : ElementSet) (rs : List ShotResult) (act : Act)
    (mem : act ∈ s.trackListeningEnd set rs) : (act.2 t).judge.excess = t.judge.excess := by
  rcases List.mem_append.1 mem with here | closing
  · rcases List.mem_append.1 here with result | flight
    · obtain ⟨r, -, rfl⟩ := List.mem_map.1 result
      exact congrArg Judge.excess assignResult_judge
    · rw [List.mem_singleton.1 flight]
      rfl
  · rw [List.eq_of_mem_replicate closing]
    exact closeNext_excess _

theorem backWallShot_excess : (s.backWallShot r).judge.excess = s.judge.excess := by
  rw [State.backWallShot]
  split
  · split <;> rfl
  · exact judgeLoss_excess (s := s.modElementCover r.element _) ..
  · rfl
  · rfl
  · rfl

theorem coverResults_excess (rs : List ShotResult) (act : Act) (mem : act ∈ coverResults rs) :
    (act.2 t).judge.excess = t.judge.excess := by
  obtain ⟨r, -, here⟩ := List.mem_flatMap.1 mem
  rcases List.mem_cons.1 here with rfl | here
  · show (t.coverCoupling r).judge.excess = _
    rw [State.coverCoupling]
    split
    · next active => exact congrArg Judge.excess ((coupleShot_told active).within.judge rfl)
    · rfl
  · rw [List.mem_singleton.1 here]
    show (t.coverBackWall r).judge.excess = _
    rw [State.coverBackWall]
    split
    · exact backWallShot_excess
    · rfl

/-! ## The lanes as a whole -/

theorem filter_isEmpty (pick : Chain → Bool) (l : List Chain) :
    (l.filter pick).isEmpty = decide ((l.filter fun c => !pick c) = l) := by
  rw [Bool.eq_iff_iff, List.isEmpty_iff, decide_eq_true_iff, List.filter_eq_nil_iff, List.filter_eq_self]
  simp

theorem startChain_length : (s.startChain r x).tracker.chains.length ≤ s.tracker.chains.length + 1 := by
  rw [State.startChain]
  split
  · exact (List.length_append ..).le
  · rw [(reportChainFull_within ..).tracker rfl]
    exact Nat.le_succ _

theorem assignEcho_length (open_ : List Open) :
    (s.assignEcho r x open_).2.tracker.chains.length ≤ s.tracker.chains.length + 1 := by
  rw [State.assignEcho]
  split
  · exact (List.length_map _).le.trans (Nat.le_succ _)
  · exact startChain_length

theorem assignResult_length :
    (s.assignResult r).tracker.chains.length ≤ s.tracker.chains.length + r.echoes.length := by
  have echoes (xs : List Echo) (acc : List Open × State) :
      (xs.foldl (fun (acc : List Open × State) x => acc.2.assignEcho r x acc.1) acc).2.tracker.chains.length ≤
        acc.2.tracker.chains.length + xs.length := by
    induction xs generalizing acc with
    | nil => exact Nat.le_refl _
    | cons x xs ih =>
      have one := assignEcho_length (s := acc.2) (r := r) (x := x) acc.1
      have others := ih (acc.2.assignEcho r x acc.1)
      rw [List.foldl_cons, List.length_cons]
      omega
  exact echoes r.echoes _

/-- The part once the tracker has worked the results of a shot. -/
def State.assigned (rs : List ShotResult) (s : State) : State := rs.foldl (fun u r => u.assignResult r) s

theorem assigned_length (rs : List ShotResult) :
    (s.assigned rs).tracker.chains.length ≤ s.tracker.chains.length + (rs.map fun r => r.echoes.length).sum := by
  induction rs generalizing s with
  | nil => exact Nat.le_refl _
  | cons r rs ih =>
    have one := assignResult_length (s := s) (r := r)
    have others : (s.assigned (r :: rs)).tracker.chains.length ≤ _ := ih (s := s.assignResult r)
    rw [List.map_cons, List.sum_cons]
    omega

theorem assigned_within (rs : List ShotResult) : Within Footprint.closing s (s.assigned rs) := by
  induction rs generalizing s with
  | nil => exact Within.refl _ s
  | cons r rs ih => exact (assignResult_within s r).trans ih

/-- Closings of overdue chains pick by the configuration, which they leave. -/
theorem closeOverdue_replicate (set : ElementSet) (travel n : Nat) (same : t.control.config = s.control.config) :
    (List.replicate n (State.closeOverdue set travel)).foldl (fun u act => act u) t =
      (List.replicate n (State.closeNext fun c => set.get c.element && s.pastGap travel c)).foldl (fun u act => act u) t := by
  induction n generalizing t with
  | zero => rfl
  | succ n ih =>
    have pick : (fun c : Chain => set.get c.element && t.gapExceeded travel c) =
        fun c => set.get c.element && s.pastGap travel c := by
      funext c
      rw [State.gapExceeded, State.gapLimit, elem_of_config same]
      rfl
    rw [List.replicate_succ, List.replicate_succ, List.foldl_cons, List.foldl_cons, State.closeOverdue, pick]
    exact ih (((closeNext_within t _).setup_config rfl).trans same)

/-- The chain table once the tracker alone has worked the end of a shot. -/
theorem trackListeningEnd_fold (set : ElementSet) (rs : List ShotResult) :
    let a := s.assigned rs
    let kept := a.tracker.chains.filter fun c => !(set.get c.element && s.pastGap s.odo.travel c)
    ((s.trackListeningEnd set rs).foldl (fun u act => act.2 u) s).table =
      ({ a.tracker with inFlight := none, chains := kept },
        a.control.episodes.chainFull && decide (kept = a.tracker.chains), s.control.config) := by
  intro a kept
  have results : (rs.map fun r => ((.loose : Mark), fun t : State => t.assignResult r)).foldl
      (fun u (act : Act) => act.2 u) s = a := List.foldl_map ..
  have closings (n : Nat) (u : State) : (List.replicate n ((.loose : Mark), State.closeOverdue set s.odo.travel)).foldl
      (fun u (act : Act) => act.2 u) u =
      (List.replicate n (State.closeOverdue set s.odo.travel)).foldl (fun u act => act u) u := by
    induction n generalizing u with
    | zero => rfl
    | succ n ih => exact ih _
  have config : a.control.config = s.control.config := (assigned_within rs).setup_config rfl
  have enough : (a.tracker.chains.filter fun c => set.get c.element && s.pastGap s.odo.travel c).length ≤
      s.tracker.chains.length + (rs.map fun r => r.echoes.length).sum :=
    (List.length_filter_le ..).trans (assigned_length rs)
  have whole := closeNext_repeated (s := a.setInFlight none) (fun c => set.get c.element && s.pastGap s.odo.travel c) _
    enough
  rw [State.trackListeningEnd, List.foldl_append, List.foldl_append, results, closings]
  show ((List.replicate _ _).foldl _ (a.setInFlight none)).table = _
  rw [closeOverdue_replicate (s := s) (t := a.setInFlight none) set _ _ config, whole]
  refine Prod.ext_iff.2 ⟨rfl, Prod.ext_iff.2 ⟨?_, ?_⟩⟩
  · exact congrArg (a.control.episodes.chainFull && ·) (filter_isEmpty _ _)
  · exact ((judgeChains_within (s := a.setInFlight none) _).setup_config rfl).trans config

/-- The account once the monitor alone has worked the results of a shot. -/
theorem coverResults_fold (rs : List ShotResult) :
    (s.cover.accounting = .idle → (coverResults rs).foldl (fun u act => act.2 u) s = s) ∧
      (s.cover.accounting = .active → (coverResults rs).foldl (fun u act => act.2 u) s =
        rs.foldl (fun u r => (u.coupleShot r).backWallShot r) s) := by
  induction rs generalizing s with
  | nil => exact ⟨fun _ => rfl, fun _ => rfl⟩
  | cons r rs ih =>
    have first : (coverResults (r :: rs)).foldl (fun u act => act.2 u) s =
        (coverResults rs).foldl (fun u act => act.2 u) ((s.coverCoupling r).coverBackWall r) := rfl
    rw [first]
    refine ⟨fun idle => ?_, fun active => ?_⟩
    · have none : (s.coverCoupling r).coverBackWall r = s := by
        rw [State.coverCoupling, if_neg (by rw [idle]; decide), State.coverBackWall, if_neg (by rw [idle]; decide)]
      rw [none]
      exact (ih (s := s)).1 idle
    · have accounting : (s.coupleShot r).cover.accounting = .active := (coupleShot_accounting active).trans active
      have both : (s.coverCoupling r).coverBackWall r = (s.coupleShot r).backWallShot r := by
        rw [State.coverCoupling, if_pos active, State.coverBackWall, if_pos accounting]
      rw [both, List.foldl_cons]
      refine (ih (s := (s.coupleShot r).backWallShot r)).2 ?_
      rw [backWallShot_account]
      exact accounting

/-! ## The end of the listening (R26, R33, R39, R61) -/

/-- The part once the results of a shot have been delivered. -/
def State.delivered (shot : Shot) (traces : Eight (List Byte)) (s : State) : State :=
  let worked := s.workShot shot traces
  let counted := s.addExcess (worked.map (·.2)).sum
  counted.inFreeOrder Config.order
    [counted.trackListeningEnd shot.set (worked.map (·.1)), coverResults (worked.map (·.1))]

/-- What the deliveries of a shot's results can change, the free order counted. -/
def Footprint.delivering : Footprint := { Footprint.results with free := true }

theorem delivered_within (shot : Shot) (traces : Eight (List Byte)) :
    Within Footprint.delivering s (s.delivered shot traces) := by
  have counted : Within Footprint.delivering s (s.addExcess ((s.workShot shot traces).map (·.2)).sum) :=
    (modJudge_within s _).mono rfl
  refine counted.trans (inFreeOrder_within _ _ _ (fun l lane act mem t => ?_) rfl)
  rcases List.mem_cons.1 lane with rfl | lane
  · exact (trackListeningEnd_within _ _ _ act mem t).mono rfl
  · rw [List.mem_singleton.1 lane] at mem
    exact (coverResults_within _ act mem t).mono rfl

/-- What each block sees of the deliveries: the tracker its lane alone, the monitor its own, the judge's excess count
neither. -/
theorem delivered_views (shot : Shot) (traces : Eight (List Byte)) :
    let worked := s.workShot shot traces
    (s.delivered shot traces).table =
        ((s.trackListeningEnd shot.set (worked.map (·.1))).foldl (fun u act => act.2 u) s).table ∧
      (s.delivered shot traces).account = ((coverResults (worked.map (·.1))).foldl (fun u act => act.2 u) s).account ∧
      (s.delivered shot traces).judge.excess = sat16 (s.judge.excess + (worked.map (·.2)).sum) := by
  intro worked
  let counted := s.addExcess (worked.map (·.2)).sum
  let lanes := [counted.trackListeningEnd shot.set (worked.map (·.1)), coverResults (worked.map (·.1))]
  obtain ⟨acts, merges, ran⟩ := inFreeOrder_merges counted Config.order lanes
  have delivered : s.delivered shot traces = _ := ran
  have other_lane {i j : Nat} {l : List Act} (at_j : lanes[j]? = some l) (apart : j ≠ i) :
      (i = 0 → l = coverResults (worked.map (·.1))) ∧
        (i = 1 → l = counted.trackListeningEnd shot.set (worked.map (·.1))) := by
    match j, at_j with
    | 0, at_j => exact ⟨fun zero => absurd zero.symm apart, fun _ => (Option.some.inj at_j).symm⟩
    | 1, at_j => exact ⟨fun _ => (Option.some.inj at_j).symm, fun one => absurd one.symm apart⟩
  rw [delivered]
  refine ⟨?_, ?_, ?_⟩
  · refine merges.view State.table 0 (fun j l apart at_j act mem t => ?_) (fun l at_0 act mem t t' same => ?_) _ s rfl
    · exact coverResults_table _ act ((other_lane at_j apart).1 rfl ▸ mem)
    · cases at_0
      exact trackListeningEnd_table _ _ act mem same
  · refine merges.view State.account 1 (fun j l apart at_j act mem t => ?_) (fun l at_1 act mem t t' same => ?_) _ s rfl
    · exact trackListeningEnd_account _ _ act ((other_lane at_j apart).2 rfl ▸ mem)
    · cases at_1
      exact coverResults_account _ act mem same
  · refine merges.view (fun u => u.judge.excess) 2 (fun j l _ at_j act mem t => ?_) (fun l at_2 => nomatch at_2) _ counted rfl
    rcases List.mem_cons.1 (List.mem_of_getElem? at_j) with rfl | here
    · exact trackListeningEnd_excess _ _ act mem
    · rw [List.mem_singleton.1 here] at mem
      exact coverResults_excess _ act mem

theorem schedListeningEnd_eq (s : State) : s.schedListeningEnd = { s with
    sched := { s.sched with state := if s.control.state = .ready then .off else .recovering s.recoveryTicks }
    pulser := { s.pulser with hv := if s.control.state = .ready then .off else s.pulser.hv } } := by
  rw [State.schedListeningEnd]
  split <;> rfl

/-- Settles O14. -/
theorem listeningEndDeliversTheShot : Obligations.ListeningEndDeliversTheShot := by
  unfold Obligations.ListeningEndDeliversTheShot
  intro traces shot s listening worked
  have all : worked = s.workShot shot traces := rfl
  clear_value worked
  subst all
  intro results assigned
  have ends : exec (.listeningEnd traces) s = .next ((s.delivered shot traces).schedListeningEnd) := by
    have here : s.onListeningEnd Config.order traces = s.endListening Config.order shot traces := by
      rw [State.onListeningEnd, listening]
    exact congrArg Host.Outcome.next here
  obtain ⟨table, account, excess⟩ := delivered_views (s := s) shot traces
  rw [trackListeningEnd_fold] at table
  obtain ⟨tracker, marks⟩ := Prod.ext_iff.1 table
  obtain ⟨mark, -⟩ := Prod.ext_iff.1 marks
  obtain ⟨cover, -⟩ := Prod.ext_iff.1 account
  have within := delivered_within (s := s) shot traces
  generalize s.delivered shot traces = u at *
  have state : u.control.state = s.control.state := within.station_state rfl
  have recovery : u.recoveryTicks = 50 * s.station.recovery := by
    unfold State.recoveryTicks State.station State.config
    rw [within.setup_config rfl]
    rfl
  rw [schedListeningEnd_eq] at ends
  refine ⟨_, ends, tracker, ?_, fun idle => ?_, fun active => ?_, excess, ?_, ?_, fun stopped => ?_, fun going => ?_,
    fun c mem fired => ?_, within.odo rfl, state, within.mask rfl, within.sameSetup rfl,
    within.sameOutside ⟨rfl, rfl, rfl, rfl, rfl⟩⟩
  · have tracker' : u.tracker = _ := tracker
    show u.control.episodes.chainFull = (_ && decide (u.tracker.chains = _))
    rw [tracker']
    exact mark
  · rw [(coverResults_fold results).1 idle] at cover
    exact cover
  · rw [(coverResults_fold results).2 active] at cover
    exact cover
  · exact (congrArg Scheduler.element (within.sched rfl) :)
  · exact (congrArg Pulser.badFires (within.pulser rfl) :)
  · have ready := state.trans stopped
    exact ⟨if_pos ready, if_pos ready⟩
  · have other : u.control.state ≠ .ready := by rw [state]; exact going
    refine ⟨(if_neg other).trans (by rw [recovery]), (if_neg other).trans ?_⟩
    exact congrArg Pulser.hv (within.pulser rfl)
  · have chains : c ∈ u.tracker.chains := mem
    rw [show u.tracker = _ from tracker] at chains
    have kept := (List.mem_filter.1 chains).2
    rw [fired] at kept
    have near : ¬ 1000 * (s.elem c.element).chainGap < s.odo.travel - c.lastTravel := by simpa [State.pastGap] using kept
    omega

end Sys2Proof.Machine
end

section
/-! The receiver and gate processor: one trace worked (O46). -/

namespace Sys2Proof.Machine

/-! ## The threshold curve (R47) -/

section
variable {u : Nat} {p q : ThresholdPoint} {points before after rest : List ThresholdPoint}

theorem thresholdLevel_low (low : u ≤ p.u) : thresholdLevel u (p :: rest) = p.level := by
  cases rest with
  | nil => rfl
  | cons q rest => rw [thresholdLevel, if_pos low]

theorem thresholdLevel_between (above : p.u < u) (below : u < q.u) :
    thresholdLevel u (p :: q :: rest) =
      p.level + Int.tdiv (((q.level : Int) - p.level) * ((u : Int) - p.u)) ((q.u : Int) - p.u) := by
  rw [thresholdLevel, if_neg (Nat.not_le.2 above), if_pos below]

theorem thresholdLevel_beyond (above : p.u < u) (beyond : q.u ≤ u) :
    thresholdLevel u (p :: q :: rest) = thresholdLevel u (q :: rest) := by
  rw [thresholdLevel, if_neg (Nat.not_le.2 above), if_neg (Nat.not_lt.2 beyond)]

/-- Points all below `u` but the first of what follows, which is not above it, play no part. -/
theorem thresholdLevel_append (ordered : (before ++ p :: rest).Pairwise fun p q => p.u < q.u) (reached : p.u ≤ u) :
    thresholdLevel u (before ++ p :: rest) = thresholdLevel u (p :: rest) := by
  induction before with
  | nil => rfl
  | cons b before ih =>
    obtain ⟨first, ordered⟩ := List.pairwise_cons.1 ordered
    have above : b.u < u := Nat.lt_of_lt_of_le (first p (by simp)) reached
    cases before with
    | nil => exact thresholdLevel_beyond above reached
    | cons q before =>
      have next : q.u < p.u := (List.pairwise_cons.1 ordered).1 p (by simp)
      exact (thresholdLevel_beyond above (by omega)).trans (ih ordered)
end

/-! ## Samples with consecutive times (R38, R42, R45) -/

/-- The samples from tick `lo` on, `n` of them, with the amplitudes `f`. -/
def stamps (f : Nat → Nat) (lo n : Nat) : List Sample := (List.range' lo n).map fun u => ⟨u, f u⟩

section
variable {f : Nat → Nat} {lo n : Nat}

theorem stamps_succ : stamps f lo (n + 1) = ⟨lo, f lo⟩ :: stamps f (lo + 1) n := rfl

theorem mem_stamps (x : Sample) : x ∈ stamps f lo n ↔ lo ≤ x.at_ ∧ x.at_ < lo + n ∧ x.amp = f x.at_ := by
  rw [stamps, List.mem_map]
  constructor
  · rintro ⟨u, mem, rfl⟩
    obtain ⟨above, below⟩ := List.mem_range'_1.1 mem
    exact ⟨above, below, rfl⟩
  · rintro ⟨above, below, amp⟩
    exact ⟨x.at_, List.mem_range'_1.2 ⟨above, below⟩, by rw [← amp]⟩

theorem stamps_getElem? (k : Nat) : (stamps f lo n)[k]? = if k < n then some ⟨lo + k, f (lo + k)⟩ else none := by
  rw [stamps, List.getElem?_map]
  by_cases inside : k < n
  · rw [if_pos inside, List.getElem?_range' inside, Nat.one_mul]
    rfl
  · rw [if_neg inside, List.getElem?_eq_none (by rw [List.length_range']; omega)]
    rfl

theorem length_stamps : (stamps f lo n).length = n := by simp [stamps]

/-- The samples of a gate of a trace. -/
theorem gateSamples_stamps (window : Nat) (trace : List Byte) (ref hi : Nat) :
    gateSamples (traceSamples window trace) ref lo hi =
      stamps (fun u => (byteAt trace (ref + u)).toNat) lo (min (hi + 1 - lo) (window - (ref + lo))) := by
  refine List.ext_getElem? fun k => ?_
  rw [gateSamples_getElem?, traceSamples_getElem?, stamps_getElem?]
  by_cases before : lo + k ≤ hi
  · by_cases inside : ref + lo + k < window
    · rw [if_pos before, if_pos inside, if_pos (by omega), ← Nat.add_assoc]
      rfl
    · rw [if_pos before, if_neg inside, if_neg (by omega)]
      rfl
  · rw [if_neg before, if_neg (by omega)]

/-- Samples split at the first that fails a test. -/
theorem stamps_split (p : Sample → Bool) : ∃ k ≤ n, (stamps f lo n).takeWhile p = stamps f lo k ∧
    (stamps f lo n).dropWhile p = stamps f (lo + k) (n - k) ∧ (∀ u, lo ≤ u → u < lo + k → p ⟨u, f u⟩ = true) ∧
    (k < n → p ⟨lo + k, f (lo + k)⟩ = false) := by
  induction n generalizing lo with
  | zero => exact ⟨0, Nat.le_refl 0, rfl, rfl, fun u _ _ => by omega, nofun⟩
  | succ n ih =>
    rw [stamps_succ]
    cases first : p ⟨lo, f lo⟩ with
    | false =>
      rw [List.takeWhile_cons_of_neg (by rw [first]; decide), List.dropWhile_cons_of_neg (by rw [first]; decide)]
      exact ⟨0, Nat.zero_le _, rfl, rfl, fun u _ _ => by omega, fun _ => first⟩
    | true =>
      obtain ⟨k, few, taken, dropped, all, next⟩ := ih (lo := lo + 1)
      rw [List.takeWhile_cons_of_pos first, List.dropWhile_cons_of_pos first, taken, dropped]
      refine ⟨k + 1, Nat.succ_le_succ few, rfl, ?_, fun u above below => ?_, fun more => ?_⟩
      · rw [Nat.add_sub_add_right, Nat.add_assoc, Nat.add_comm 1 k]
      · rcases Nat.eq_or_lt_of_le above with rfl | later
        · exact first
        · exact all u later (by omega)
      · rw [show lo + (k + 1) = lo + 1 + k by omega]
        exact next (by omega)

/-- A run of samples has its peak at the first of its greatest. -/
theorem peakSample_stamps (m : Nat) : ∃ t, peakSample ⟨lo, f lo⟩ (stamps f (lo + 1) m) = ⟨t, f t⟩ ∧ lo ≤ t ∧
    t < lo + (m + 1) ∧ (∀ u, lo ≤ u → u < t → f u < f t) ∧ ∀ u, lo ≤ u → u < lo + (m + 1) → f u ≤ f t := by
  obtain ⟨before, after, parts, below, above⟩ := peakSample_spec ⟨lo, f lo⟩ (stamps f (lo + 1) m)
  rw [← stamps_succ] at parts
  generalize peakSample ⟨lo, f lo⟩ (stamps f (lo + 1) m) = peak at *
  have at_peak := congrArg (fun l => l[before.length]?) parts
  simp only [stamps_getElem?, List.getElem?_append_right (Nat.le_refl _), Nat.sub_self, List.getElem?_cons_zero] at at_peak
  split at at_peak
  · next inside =>
    obtain rfl := Option.some.inj at_peak
    have earlier (u : Nat) (from_lo : lo ≤ u) (less : u < lo + before.length) : f u < f (lo + before.length) := by
      refine below ⟨u, f u⟩ ?_
      have at_u := congrArg (fun l => l[u - lo]?) parts
      simp only [stamps_getElem?, List.getElem?_append_left (show u - lo < before.length by omega)] at at_u
      rw [if_pos (by omega), show lo + (u - lo) = u by omega] at at_u
      exact List.mem_of_getElem? at_u.symm
    refine ⟨lo + before.length, rfl, by omega, by omega, earlier, fun u from_lo inside_u => ?_⟩
    rcases Nat.lt_trichotomy u (lo + before.length) with less | rfl | more
    · exact (earlier u from_lo less).le
    · exact Nat.le_refl _
    · refine above ⟨u, f u⟩ ?_
      have mem : (⟨u, f u⟩ : Sample) ∈ stamps f lo (m + 1) := (mem_stamps _).2 ⟨from_lo, inside_u, rfl⟩
      have at_u : (stamps f lo (m + 1))[u - lo]? = some ⟨u, f u⟩ := by
        rw [stamps_getElem?, if_pos (by omega), show lo + (u - lo) = u by omega]
      rw [parts, List.getElem?_append_right (by omega), show u - lo - before.length = (u - lo - before.length - 1) + 1 by omega,
        List.getElem?_cons_succ] at at_u
      exact List.mem_of_getElem? at_u
  · cases at_peak
end

/-! ## Gate A's echoes (R48 to R51) -/

/-- The sample is the first of the greatest of a span. -/
structure PeakOf (f : Nat → Nat) (span : Nat × Nat) (x : Sample) : Prop where
  amp : f x.at_ = x.amp
  low : span.1 ≤ x.at_
  high : x.at_ < span.2
  greatest : ∀ u, span.1 ≤ u → u < span.2 → f u ≤ x.amp
  first : ∀ u, span.1 ≤ u → u < x.at_ → f u < x.amp

/-- The spans of the echoes of the samples from `lo` on, `n` of them: the runs at or above their levels, each followed by
the dead zone, and their peaks. -/
structure EchoSpans (points : List ThresholdPoint) (deadZone : Nat) (f : Nat → Nat) (lo n : Nat)
    (spans : List (Nat × Nat)) (peaks : List Sample) : Prop where
  apart : spans.Pairwise fun p q => p.2 + deadZone ≤ q.1
  inside : ∀ p ∈ spans, lo ≤ p.1 ∧ p.1 < p.2 ∧ p.2 ≤ lo + n
  above : ∀ p ∈ spans, ∀ u, p.1 ≤ u → u < p.2 → atOrAbove points ⟨u, f u⟩ = true
  ends : ∀ p ∈ spans, p.2 < lo + n → atOrAbove points ⟨p.2, f p.2⟩ = false
  all : ∀ u, lo ≤ u → u < lo + n → atOrAbove points ⟨u, f u⟩ = true → ∃ p ∈ spans, p.1 ≤ u ∧ u < p.2 + deadZone
  peaked : List.Forall₂ (PeakOf f) spans peaks

section
variable {points : List ThresholdPoint} {deadZone : Nat} {f : Nat → Nat} {lo n k : Nat} {spans : List (Nat × Nat)}
  {peaks : List Sample}

/-- Samples below their levels come before the first echo. -/
theorem EchoSpans.later (echoes : EchoSpans points deadZone f (lo + k) (n - k) spans peaks) (few : k ≤ n)
    (quiet : ∀ u, lo ≤ u → u < lo + k → atOrAbove points ⟨u, f u⟩ = false) :
    EchoSpans points deadZone f lo n spans peaks where
  apart := echoes.apart
  inside := fun p mem => by
    have := echoes.inside p mem
    omega
  above := echoes.above
  ends := fun p mem less => echoes.ends p mem (by omega)
  all := fun u from_lo less reached => by
    by_cases early : u < lo + k
    · rw [quiet u from_lo early] at reached
      cases reached
    · exact echoes.all u (by omega) (by omega) reached
  peaked := echoes.peaked

/-- A run and the dead zone after it come before the next echo; `k` samples lie in the dead zone, all that are left or all
up to its end. -/
theorem EchoSpans.cons {m : Nat} {x : Sample}
    (echoes : EchoSpans points deadZone f (lo + m + k) (n - m - k) spans peaks) (some : 0 < m) (few : m + k ≤ n)
    (run : ∀ u, lo ≤ u → u < lo + m → atOrAbove points ⟨u, f u⟩ = true)
    (stops : m < n → atOrAbove points ⟨lo + m, f (lo + m)⟩ = false) (dead : ∀ u, lo + m ≤ u → u < lo + m + k → u < lo + m + deadZone)
    (past : m + k < n → lo + m + deadZone ≤ lo + m + k) (peak : PeakOf f (lo, lo + m) x) :
    EchoSpans points deadZone f lo n ((lo, lo + m) :: spans) (x :: peaks) where
  apart := by
    refine List.pairwise_cons.2 ⟨fun q mem => ?_, echoes.apart⟩
    have := echoes.inside q mem
    have := past (by omega)
    show lo + m + deadZone ≤ q.1
    omega
  inside := fun p mem => by
    rcases List.mem_cons.1 mem with rfl | mem
    · exact ⟨Nat.le_refl _, by show lo < lo + m; omega, by show lo + m ≤ lo + n; omega⟩
    · have := echoes.inside p mem
      omega
  above := fun p mem => by
    rcases List.mem_cons.1 mem with rfl | mem
    · exact run
    · exact echoes.above p mem
  ends := fun p mem less => by
    rcases List.mem_cons.1 mem with rfl | mem
    · have less' : lo + m < lo + n := less
      exact stops (by omega)
    · exact echoes.ends p mem (by omega)
  all := fun u from_lo less reached => by
    by_cases early : u < lo + m + k
    · refine ⟨_, List.mem_cons_self .., from_lo, ?_⟩
      by_cases within : u < lo + m
      · show u < lo + m + deadZone
        omega
      · exact dead u (by omega) early
    · obtain ⟨p, mem, bounds⟩ := echoes.all u (by omega) (by omega) reached
      exact ⟨p, List.mem_cons_of_mem _ mem, bounds⟩
  peaked := .cons peak echoes.peaked

theorem EchoSpans.none : EchoSpans points deadZone f lo 0 [] [] where
  apart := .nil
  inside := nofun
  above := nofun
  ends := nofun
  all := fun u from_lo less => by omega
  peaked := .nil

/-- The peaks found are those of the echoes. -/
theorem echoPeaks_spans {fuel : Nat} (enough : n ≤ fuel) :
    ∃ spans, EchoSpans points deadZone f lo n spans (echoPeaks points deadZone fuel (stamps f lo n)) := by
  induction fuel generalizing lo n with
  | zero =>
    obtain rfl := Nat.le_zero.1 enough
    exact ⟨[], .none⟩
  | succ fuel ih =>
    obtain ⟨k, few, -, dropped, quiet, next⟩ := stamps_split (f := f) (lo := lo) (n := n) fun x => !atOrAbove points x
    have quiet' (u : Nat) (above : lo ≤ u) (below : u < lo + k) : atOrAbove points ⟨u, f u⟩ = false := by
      simpa using quiet u above below
    rw [echoPeaks, dropped]
    by_cases rest : k < n
    · have first : atOrAbove points ⟨lo + k, f (lo + k)⟩ = true := by simpa using next rest
      rw [show n - k = (n - k - 1) + 1 by omega, stamps_succ]
      dsimp only
      obtain ⟨m, short, run, after, reached, stops⟩ :=
        stamps_split (f := f) (lo := lo + k + 1) (n := n - k - 1) (atOrAbove points)
      rw [run, after]
      obtain ⟨t, peak, low, high, less, greatest⟩ := peakSample_stamps (f := f) (lo := lo + k) m
      rw [peak]
      have reaches (u : Nat) (above : lo + k ≤ u) (below : u < lo + k + (m + 1)) :
          atOrAbove points ⟨u, f u⟩ = true := by
        rcases Nat.eq_or_lt_of_le above with rfl | later
        · exact first
        · exact reached u later (by omega)
      have peak_of : PeakOf f (lo + k, lo + k + (m + 1)) ⟨t, f t⟩ := ⟨rfl, low, high, greatest, less⟩
      have end_eq : lo + k + 1 + m = lo + k + (m + 1) := by omega
      rw [end_eq]
      rw [end_eq] at stops
      have stops' (more : m + 1 < n - k) : atOrAbove points ⟨lo + k + (m + 1), f (lo + k + (m + 1))⟩ = false :=
        stops (by omega)
      obtain ⟨left, left_eq⟩ : ∃ left, n - k - 1 - m = left := ⟨_, rfl⟩
      rw [left_eq]
      cases left with
      | zero =>
        refine ⟨[(lo + k, lo + k + (m + 1))], EchoSpans.later (k := k) ?_ few quiet'⟩
        refine EchoSpans.cons (k := 0) ?_ (Nat.succ_pos m) (by omega) reaches stops' (fun u _ _ => by omega)
          (fun _ => by omega) peak_of
        rw [show n - k - (m + 1) - 0 = 0 by omega]
        exact .none
      | succ left =>
        rw [stamps_succ]
        dsimp only
        rw [← stamps_succ]
        obtain ⟨j, within, -, past, dead, awake⟩ := stamps_split (f := f) (lo := lo + k + (m + 1)) (n := left + 1)
          fun z => z.at_ < lo + k + (m + 1) + deadZone
        rw [past]
        obtain ⟨spans, echoes⟩ := ih (lo := lo + k + (m + 1) + j) (n := left + 1 - j) (by omega)
        refine ⟨(lo + k, lo + k + (m + 1)) :: spans, EchoSpans.later (k := k) ?_ few quiet'⟩
        refine EchoSpans.cons (k := j) ?_ (Nat.succ_pos m) (by omega) reaches stops' (fun u above below => ?_)
          (fun more => ?_) peak_of
        · rw [show n - k - (m + 1) - j = left + 1 - j by omega]
          exact echoes
        · simpa using dead u above below
        · have free := awake (by omega)
          simpa using free
    · obtain rfl : k = n := by omega
      rw [Nat.sub_self]
      refine ⟨[], EchoSpans.later (k := k) ?_ few quiet'⟩
      rw [Nat.sub_self]
      exact .none

end

/-! ## One trace -/

section
variable {c : ElementSection} {trace : List Byte}

/-- The number of samples of a gate of a trace. -/
def gateCount (window ref lo hi : Nat) : Nat := min (hi + 1 - lo) (window - (ref + lo))

theorem gateCount_inside {window ref lo hi u : Nat} (from_lo : lo ≤ u) :
    u < lo + gateCount window ref lo hi ↔ u ≤ hi ∧ ref + u < window := by
  unfold gateCount
  omega

/-- The greatest amplitude of a gate. -/
theorem foldl_max_amp (l : List Sample) :
    (∀ x ∈ l, x.amp ≤ l.foldl (fun m x => max m x.amp) 0) ∧
      ((∃ x ∈ l, x.amp = l.foldl (fun m x => max m x.amp) 0) ∨ (l = [] ∧ l.foldl (fun m x => max m x.amp) 0 = 0)) := by
  obtain ⟨-, below, reached⟩ := listenTicks_bounds Sample.amp l 0
  refine ⟨below, ?_⟩
  rcases reached with zero | reached
  · cases l with
    | nil => exact .inr ⟨rfl, rfl⟩
    | cons x l =>
      have least := below x (List.mem_cons_self ..)
      rw [zero] at least
      exact .inl ⟨x, List.mem_cons_self .., (Nat.le_zero.1 least).trans zero.symm⟩
  · exact .inl reached

/-- Gate I without a sample at the coupling level. -/
theorem gateI_none {f : Nat → Nat} {n : Nat} {samples : List Nat}
    (gate : gateSamples samples 0 c.iStart c.iEnd = stamps f c.iStart n)
    (quiet : ∀ t, c.iStart ≤ t → t < c.iStart + n → f t < c.couplingLevel) :
    gateI c samples = ⟨false, c.nominalDelay, (stamps f c.iStart n).foldl (fun m x => max m x.amp) 0⟩ := by
  have none : (stamps f c.iStart n).dropWhile (fun x => decide (x.amp < c.couplingLevel)) = [] := by
    rw [List.dropWhile_eq_nil_iff]
    intro x mem
    obtain ⟨above, below, amp⟩ := (mem_stamps x).1 mem
    rw [decide_eq_true_iff, amp]
    exact quiet _ above below
  rw [gateI, gate, none]
  rfl

/-- Gate I with `a` the first sample at the coupling level: the run from there on, and its peak. -/
theorem gateI_some {f : Nat → Nat} {n a : Nat} {samples : List Nat}
    (gate : gateSamples samples 0 c.iStart c.iEnd = stamps f c.iStart n)
    (low : c.iStart ≤ a) (high : a < c.iStart + n) (reached : c.couplingLevel ≤ f a)
    (quiet : ∀ t, c.iStart ≤ t → t < a → f t < c.couplingLevel) :
    ∃ m t, a + (m + 1) ≤ c.iStart + n ∧ gateI c samples = ⟨true, t, f t⟩ ∧ PeakOf f (a, a + (m + 1)) ⟨t, f t⟩ ∧
      (∀ u, a ≤ u → u < a + (m + 1) → c.couplingLevel ≤ f u) ∧
      (a + (m + 1) < c.iStart + n → f (a + (m + 1)) < c.couplingLevel) := by
  obtain ⟨k, few, -, dropped, before, next⟩ :=
    stamps_split (f := f) (lo := c.iStart) (n := n) fun x => decide (x.amp < c.couplingLevel)
  have first : c.iStart + k = a := by
    rcases Nat.lt_trichotomy (c.iStart + k) a with less | same | more
    · have reaches := next (by omega)
      have below := quiet _ (by omega) less
      simp only [decide_eq_false_iff_not] at reaches
      omega
    · exact same
    · have below := before a low more
      simp only [decide_eq_true_iff] at below
      omega
  obtain ⟨m, short, run, -, holds, stops⟩ :=
    stamps_split (f := f) (lo := a + 1) (n := n - k - 1) fun x => decide (c.couplingLevel ≤ x.amp)
  obtain ⟨t, peak, above, below, less, greatest⟩ := peakSample_stamps (f := f) (lo := a) m
  have end_eq : a + 1 + m = a + (m + 1) := by omega
  refine ⟨m, t, by omega, ?_, ⟨rfl, above, below, greatest, less⟩, fun u from_a inside => ?_, fun more => ?_⟩
  · have taken : (stamps f a (n - k)).takeWhile (fun x => decide (c.couplingLevel ≤ x.amp)) =
        ⟨a, f a⟩ :: stamps f (a + 1) m := by
      rw [show n - k = (n - k - 1) + 1 by omega, stamps_succ, List.takeWhile_cons_of_pos (by exact decide_eq_true reached),
        run]
    rw [gateI, gate, dropped, first, taken]
    dsimp only
    rw [peak]
  · rcases Nat.eq_or_lt_of_le from_a with rfl | later
    · exact reached
    · simpa using holds u later (by omega)
  · have beyond := stops (by omega)
    rw [end_eq] at beyond
    simpa using beyond
end

/-- Settles O46. -/
theorem tracesGiveTheirShotResults : Obligations.TracesGiveTheirShotResults := by
  unfold Obligations.TracesGiveTheirShotResults
  refine ⟨fun points ordered => ⟨fun p mem => ?_, fun p rest u same low => ?_, fun before p u same high => ?_,
    fun before after p q u same above below => ?_⟩, ?_⟩
  · obtain ⟨before, rest, rfl⟩ := List.append_of_mem mem
    rw [thresholdLevel_append ordered (Nat.le_refl _), thresholdLevel_low (Nat.le_refl _)]
  · rw [same, thresholdLevel_low low]
  · rw [same] at ordered ⊢
    rw [thresholdLevel_append ordered high]
    rfl
  · rw [same] at ordered ⊢
    rw [thresholdLevel_append ordered above.le, thresholdLevel_between above below]
  intro c e shot trace samples amp i inI inA reaches gate r excess
  have gate_i : gateSamples samples 0 c.iStart c.iEnd = stamps amp c.iStart (gateCount c.window 0 c.iStart c.iEnd) := by
    rw [gateSamples_stamps]
    exact congrArg (fun g => stamps g _ _) (funext fun u => by rw [Nat.zero_add])
  have in_i (t : Nat) : inI t ↔ c.iStart ≤ t ∧ t < c.iStart + gateCount c.window 0 c.iStart c.iEnd := by
    constructor
    · rintro ⟨low, high, inside⟩
      exact ⟨low, (gateCount_inside low).2 ⟨high, by omega⟩⟩
    · rintro ⟨low, within⟩
      obtain ⟨high, inside⟩ := (gateCount_inside low).1 within
      exact ⟨low, high, by omega⟩
  have gate_b : gate = stamps (fun u => amp (i.tRef + u)) c.bStart (gateCount c.window i.tRef c.bStart c.bEnd) :=
    gateSamples_stamps ..
  refine ⟨⟨rfl, rfl, rfl, rfl⟩, fun quiet => ?_, fun a inside reached first => ?_, ?_, fun a => ?_, fun enabled => ?_,
    fun disabled => ?_⟩
  · have found : i = _ := gateI_none gate_i fun t low high => quiet t ((in_i t).2 ⟨low, high⟩)
    obtain ⟨below, top⟩ := foldl_max_amp (stamps amp c.iStart (gateCount c.window 0 c.iStart c.iEnd))
    rw [found]
    refine ⟨rfl, rfl, fun t inside => ?_, ?_⟩
    · obtain ⟨low, high⟩ := (in_i t).1 inside
      exact below ⟨t, amp t⟩ ((mem_stamps _).2 ⟨low, high, rfl⟩)
    · rcases top with ⟨x, mem, greatest⟩ | ⟨empty, zero⟩
      · obtain ⟨low, high, value⟩ := (mem_stamps x).1 mem
        exact .inl ⟨x.at_, (in_i _).2 ⟨low, high⟩, value.symm.trans greatest⟩
      · refine .inr ⟨fun t inside => ?_, zero⟩
        obtain ⟨low, high⟩ := (in_i t).1 inside
        have mem : (⟨t, amp t⟩ : Sample) ∈ stamps amp c.iStart _ := (mem_stamps _).2 ⟨low, high, rfl⟩
        rw [empty] at mem
        cases mem
  · obtain ⟨low, high⟩ := (in_i a).1 inside
    obtain ⟨m, t, within, found, peak, run, stops⟩ := gateI_some gate_i low high reached fun t from_start before =>
      first t ((in_i t).2 ⟨from_start, by omega⟩) before
    have found' : i = ⟨true, t, amp t⟩ := found
    rw [found']
    have from_a : a ≤ t := peak.low
    have to_end : t < a + (m + 1) := peak.high
    refine ⟨rfl, from_a, rfl, fun u above (below : u ≤ t) => ⟨(in_i u).2 ⟨by omega, by omega⟩, run u above (by omega)⟩,
      peak.first, fun u above whole => peak.greatest u above ?_⟩
    show u < a + (m + 1)
    by_contra beyond
    obtain ⟨inside_end, reached_end⟩ := whole (a + (m + 1)) (by omega) (by omega)
    have below := stops ((in_i _).1 inside_end).2
    omega
  · have gate_a : gateSamples samples i.tRef c.aStart c.aEnd =
        stamps (fun u => amp (i.tRef + u)) c.aStart (gateCount c.window i.tRef c.aStart c.aEnd) := gateSamples_stamps ..
    have reaches_iff (u : Nat) : reaches u ↔ c.aStart ≤ u ∧ u < c.aStart + gateCount c.window i.tRef c.aStart c.aEnd ∧
        atOrAbove (usedPoints c) ⟨u, amp (i.tRef + u)⟩ = true := by
      constructor
      · rintro ⟨⟨low, high, inside⟩, level⟩
        exact ⟨low, (gateCount_inside low).2 ⟨high, inside⟩, decide_eq_true level⟩
      · rintro ⟨low, within, level⟩
        obtain ⟨high, inside⟩ := (gateCount_inside low).1 within
        exact ⟨⟨low, high, inside⟩, of_decide_eq_true level⟩
    obtain ⟨spans, echoes⟩ := echoPeaks_spans (points := usedPoints c) (deadZone := c.deadZone)
      (f := fun u => amp (i.tRef + u)) (lo := c.aStart) (n := gateCount c.window i.tRef c.aStart c.aEnd)
      (fuel := (stamps (fun u => amp (i.tRef + u)) c.aStart (gateCount c.window i.tRef c.aStart c.aEnd)).length)
      length_stamps.ge
    have found : gateAPeaks c samples i.tRef = _ := congrArg (fun g : List Sample => echoPeaks (usedPoints c) c.deadZone g.length g) gate_a
    rw [← found] at echoes
    have count := echoes.peaked.length_eq
    refine ⟨spans, echoes.apart, fun p mem => ⟨(echoes.inside p mem).2.1, fun u above below => ?_, fun reached => ?_⟩,
      fun u reached => ?_, ?_, ?_, fun k x p at_x at_p => ?_⟩
    · have bounds := echoes.inside p mem
      exact (reaches_iff u).2 ⟨by omega, by omega, echoes.above p mem u above below⟩
    · obtain ⟨-, within, level⟩ := (reaches_iff p.2).1 reached
      rw [echoes.ends p mem within] at level
      cases level
    · obtain ⟨low, high, level⟩ := (reaches_iff u).1 reached
      exact echoes.all u low high level
    · have delivered : r.echoes.length = (((gateAPeaks c samples i.tRef).take maxEchoes).map (echoOf c.pathScale)).length :=
        rfl
      rw [delivered, List.length_map, List.length_take, count]
      rfl
    · have rest : excess = ((gateAPeaks c samples i.tRef).drop maxEchoes).length := rfl
      rw [rest, List.length_drop, count]
      rfl
    · have at_x' : (((gateAPeaks c samples i.tRef).take maxEchoes).map (echoOf c.pathScale))[k]? = some x := at_x
      rw [List.getElem?_map, List.getElem?_take] at at_x'
      obtain ⟨y, at_y, rfl⟩ := Option.map_eq_some_iff.1 at_x'
      have at_y' : (gateAPeaks c samples i.tRef)[k]? = some y := by
        split at at_y
        · exact at_y
        · cases at_y
      obtain ⟨inside_p, rfl⟩ := List.getElem?_eq_some_iff.1 at_p
      obtain ⟨inside_y, rfl⟩ := List.getElem?_eq_some_iff.1 at_y'
      have peak := (List.forall₂_iff_get.1 echoes.peaked).2 k inside_p inside_y
      exact ⟨peak.low, peak.high, peak.amp, peak.greatest, peak.first, Bool.beq_eq_decide_eq .., rfl⟩
  · rw [gate_b]
    constructor
    · rintro ⟨x, mem, rfl⟩
      obtain ⟨low, high, value⟩ := (mem_stamps x).1 mem
      obtain ⟨before_end, inside⟩ := (gateCount_inside low).1 high
      exact ⟨x.at_, low, before_end, inside, value⟩
    · rintro ⟨u, low, high, inside, rfl⟩
      exact ⟨⟨u, amp (i.tRef + u)⟩, (mem_stamps _).2 ⟨low, (gateCount_inside low).2 ⟨high, inside⟩, rfl⟩, rfl⟩
  · have finding : r.backWall = some (gate.any fun x => decide (c.backWallLevel ≤ x.amp)) :=
      if_pos (beq_iff_eq.2 enabled)
    rw [finding]
    refine ⟨fun present => congrArg some (List.any_eq_true.2 ?_), fun absent => congrArg some (List.any_eq_false.2 ?_),
      fun empty => by rw [empty]; rfl⟩
    · obtain ⟨x, mem, reached⟩ := present
      exact ⟨x, mem, decide_eq_true reached⟩
    · intro x mem
      simpa using absent x mem
  · exact if_neg (by simpa [hasGateB] using disabled)

end Sys2Proof.Machine
end

section
/-! SUPPORT. An accepted edge: the station that starts to move, the travel advance as acts by name, and what each block makes
of it whatever the order. -/

namespace Sys2Proof.Machine

variable {s t t' b m : State} {v : Event} {d : Deed} {ds : List Deed} {a : Advance}

/-! ## A station that starts to move (R11, R30, R166) -/

/-- The part once the first edge after stillness has been told, `starts` saying whether the station starts to move. -/
def State.setOff (starts : Bool) (m : State) : State := { m with
  control := { m.control with state := if starts then .running else m.control.state }
  sched := { m.sched with state :=
    if starts = true ∧ m.sched.state = .off then if m.pulser.hv = .ready then .free else .settling else m.sched.state }
  pulser := { m.pulser with hv :=
    if starts = true ∧ m.sched.state = .off ∧ m.pulser.hv = .off then .settling 0 else m.pulser.hv } }

theorem setOff_false (m : State) : m.setOff false = m := by
  simp [State.setOff]

theorem moving_eq : (if a.afterStill then m.tellFirstEdge else m) = m.setOff (m.startsMoving a) := by
  unfold State.startsMoving
  cases a.afterStill with
  | false => exact (setOff_false m).symm
  | true =>
    rw [if_pos rfl, Bool.true_and]
    by_cases still : m.control.state = .still
    · have told : m.tellFirstEdge = m.leaveStill := by
        unfold State.tellFirstEdge
        rw [still]
      rw [told, still, State.leaveStill, schedRunning_eq]
      simp only [State.setOff, State.setStation, State.modControl, beq_self_eq_true, true_and, if_true]
      congr
    · have kept : m.tellFirstEdge = m := by
        unfold State.tellFirstEdge
        cases state : m.control.state with
        | still => exact absurd state still
        | _ => rfl
      rw [kept, beq_eq_false_iff_ne.2 still, setOff_false]

/-! ## The lanes of a travel advance by name (R7) -/

/-- The acts of a travel advance, a lane for each block. -/
def State.advanceDeeds (starts : Bool) (m : State) : List (List Deed) :=
  [if starts then [.tellStatus] else [], List.replicate m.tracker.chains.length .closeAtAdvance, [.coverAdvance],
    [.pairAdvance]]

theorem advanceLanes_named (travel : v.travel = a.travel) (reversal : v.reversal = a.reversal) :
    (m.advanceLanes a).map (List.map Prod.snd) =
      (m.advanceDeeds (m.startsMoving a)).map (List.map (Deed.act v)) := by
  have closes : (m.trackAdvance a.travel a.reversal).map Prod.snd =
      (List.replicate m.tracker.chains.length Deed.closeAtAdvance).map (Deed.act v) := by
    rw [State.trackAdvance, List.map_replicate, List.map_replicate, Deed.act, travel, reversal]
  have status : (if m.startsMoving a then [((.loose : Mark), State.queueStatus 0)] else []).map Prod.snd =
      (if m.startsMoving a then [Deed.tellStatus] else []).map (Deed.act v) := by
    cases m.startsMoving a <;> rfl
  simp only [State.advanceLanes, State.advanceDeeds, List.map_cons, List.map_nil, closes, status, Deed.act, travel]

/-! ## The pairing unit at a travel advance (R120, R125) -/

/-- The peers once those unheard for too long are SILENT. -/
def State.silenced (b : State) (travel : Nat) (peers : List Peer) : List Peer :=
  silencePeers travel (1000000 * b.station.silence) peers

theorem silenced_silenced (b : State) (travel : Nat) (peers : List Peer) :
    b.silenced travel (b.silenced travel peers) = b.silenced travel peers := by
  unfold State.silenced silencePeers
  rw [List.map_map]
  refine List.map_congr_left fun q _ => ?_
  rw [Function.comp_apply]
  by_cases unheard : (q.live && decide (1000000 * b.station.silence < travel - q.lastHeard)) = true
  · rw [if_pos unheard, if_neg (by simp)]
  · rw [if_neg unheard, if_neg unheard]

/-- What acts leave of the peers, the run mark and the stored notices. -/
structure Paired (b : State) (v : Event) (ds : List Deed) (t t' : State) : Prop where
  runMark : t'.pair.runMark = t.pair.runMark
  notices : t'.pair.notices ⊆ t.pair.notices
  peers : Deed.pairAdvance ∈ ds → t'.pair.peers = b.silenced v.travel t.pair.peers
  same : Deed.pairAdvance ∉ ds → t'.pair.peers = t.pair.peers
  fresh : Deed.pairAdvance ∈ ds → t.pair.runMark = true →
    ∀ n ∈ t'.pair.notices, v.travel - n.arrival ≤ 1000000 * b.station.horizon

theorem closeNext_pair (pick : Chain → Bool) :
    (s.closeNext pick).pair.peers = s.pair.peers ∧ (s.closeNext pick).pair.runMark = s.pair.runMark ∧
      (s.closeNext pick).pair.notices ⊆ s.pair.notices := by
  cases found : s.tracker.chains.find? pick with
  | none =>
    rw [closeNext_none found]
    exact ⟨rfl, rfl, List.Subset.refl _⟩
  | some c =>
    have judged := judgedOnce_pair (judgeChain_judgedOnce (s := s) c)
    rw [closeNext_some found]
    exact judged

theorem station_of_config (same : t.control.config = t'.control.config) : t.station = t'.station := by
  unfold State.station State.config
  rw [same]

theorem act_paired (config : t.control.config = b.control.config) (d : Deed) : Paired b v [d] t (d.act v t) := by
  have quiet (other : d ≠ .pairAdvance) (peers : (d.act v t).pair.peers = t.pair.peers)
      (mark : (d.act v t).pair.runMark = t.pair.runMark) (notices : (d.act v t).pair.notices ⊆ t.pair.notices) :
      Paired b v [d] t (d.act v t) := by
    have absent : Deed.pairAdvance ∉ [d] := fun mem => other (List.mem_singleton.1 mem).symm
    exact ⟨mark, notices, fun mem => absurd mem absent, fun _ => peers, fun mem => absurd mem absent⟩
  have stands (other : d ≠ .pairAdvance) (pair : (d.act v t).pair = t.pair) : Paired b v [d] t (d.act v t) := by
    refine quiet other ?_ ?_ ?_ <;> rw [pair]
    exact List.Subset.refl _
  have closes {pick : Chain → Bool} (other : d ≠ .pairAdvance) (act : d.act v t = t.closeNext pick) :
      Paired b v [d] t (d.act v t) := by
    obtain ⟨peers, mark, notices⟩ := closeNext_pair (s := t) pick
    rw [← act] at peers mark notices
    exact quiet other peers mark notices
  cases d with
  | closeAtAdvance => exact closes nofun rfl
  | closeAtFire => exact closes nofun rfl
  | closeDisabled e => exact closes nofun rfl
  | tellStatus => exact stands nofun ((append_within ..).pair rfl)
  | tellGap g => exact stands nofun ((append_within ..).pair rfl)
  | coverAdvance => exact stands nofun ((coverAdvance_within ..).pair rfl)
  | takeFlight => exact stands nofun rfl
  | askCauses => exact stands nofun ((applyRequests_within ..).pair rfl)
  | leaveMask e => exact stands nofun rfl
  | report e => exact stands nofun ((reportFault_within ..).pair rfl)
  | coverDisable e => exact stands nofun ((coverDisable_within ..).pair rfl)
  | pairAdvance =>
    have station := station_of_config config
    cases mark : t.pair.runMark with
    | false =>
      have worked : (Deed.pairAdvance.act v t).pair = { t.pair with peers := b.silenced v.travel t.pair.peers } := by
        simp only [Deed.act, State.pairAdvance, State.modPair, mark, State.silenced, station, Bool.false_eq_true, if_false]
      refine ⟨by rw [worked], by rw [worked]; exact List.Subset.refl _, fun _ => by rw [worked], fun absent => ?_,
        fun _ set => ?_⟩
      · exact absurd (List.mem_singleton_self _) absent
      · rw [mark] at set
        cases set
    | true =>
      have worked : (Deed.pairAdvance.act v t).pair.peers = b.silenced v.travel t.pair.peers ∧
          (Deed.pairAdvance.act v t).pair.runMark = t.pair.runMark ∧
          (Deed.pairAdvance.act v t).pair.notices =
            t.pair.notices.filter fun n => !(decide (1000000 * b.station.horizon < v.travel - n.arrival)) := by
        simp only [Deed.act, State.pairAdvance, State.modPair, mark, State.silenced, station, if_true, and_self]
      obtain ⟨peers, runMark, notices⟩ := worked
      refine ⟨runMark, by rw [notices]; exact List.filter_subset_self _, fun _ => peers, fun absent => ?_,
        fun _ _ n mem => ?_⟩
      · exact absurd (List.mem_singleton_self _) absent
      · rw [notices] at mem
        simpa using (List.mem_filter.1 mem).2

theorem runDeeds_paired (config : t.control.config = b.control.config) (ds : List Deed) :
    Paired b v ds t (runDeeds v ds t) := by
  induction ds generalizing t with
  | nil => exact ⟨rfl, List.Subset.refl _, nofun, fun _ => rfl, nofun⟩
  | cons d ds ih =>
    have first := act_paired (v := v) config d
    have rest := ih (t := d.act v t) (((deed_within v d).setup_config rfl).trans config)
    have here : Deed.pairAdvance ∈ d :: ds → Deed.pairAdvance ∈ [d] ∨ Deed.pairAdvance ∈ ds := fun mem => by
      simpa using mem
    refine ⟨rest.runMark.trans first.runMark, List.Subset.trans rest.notices first.notices, fun mem => ?_, fun absent => ?_,
      fun mem mark n inside => ?_⟩
    · show (runDeeds v ds (d.act v t)).pair.peers = _
      by_cases later : Deed.pairAdvance ∈ ds <;> by_cases now : Deed.pairAdvance ∈ [d]
      · rw [rest.peers later, first.peers now, silenced_silenced]
      · rw [rest.peers later, first.same now]
      · rw [rest.same later, first.peers now]
      · exact absurd (here mem) (not_or.2 ⟨now, later⟩)
    · exact (rest.same fun later => absent (List.mem_cons_of_mem _ later)).trans
        (first.same fun now => absent (by rw [← List.mem_singleton.1 now]; exact List.mem_cons_self ..))
    · rcases here mem with now | later
      · exact first.fresh now mark n (rest.notices inside)
      · exact rest.fresh later (first.runMark.trans mark) n inside

/-! ## The chain tracker and the judge at a travel advance (R69 to R71, R87 to R94) -/

theorem numberIndication_judge (e : Element) (x : Int) (body : Body) : (s.numberIndication e x body).judge =
    if s.judge.excludes x then { s.judge with suppressed := min (s.judge.suppressed + 1) 65535 }
    else { s.judge with nextSeq := if s.judge.nextSeq < 65535 then s.judge.nextSeq + 1 else 1 } := by
  by_cases inside : s.judge.excludes x = true
  · rw [numberIndication_suppressed e x body inside, if_pos inside]
  · rw [numberIndication_taken e x body inside, (pairOwn_within ..).judge rfl, if_neg inside]

theorem judgeChain_judge (config : t.control.config = t'.control.config) (judge : t.judge = t'.judge) (c : Chain) :
    (t.judgeChain c).judge = (t'.judgeChain c).judge := by
  have elem := elem_of_config config c.element
  have station := station_of_config config
  by_cases reported : (t.elem c.element).minLength ≤ c.count ∧ (t.elem c.element).reportLevel ≤ c.peak
  · rw [judgeChain_reported reported.1 reported.2, judgeChain_reported (elem ▸ reported.1) (elem ▸ reported.2),
      numberIndication_judge, numberIndication_judge, elem, station, judge]
  · rw [judgeChain_rejected (by omega), judgeChain_rejected (by rw [← elem]; omega), judge]

/-- What a closing reads and writes but for the pairing unit and the notices: the chain table and the judge. -/
def State.bench (s : State) : (Tracker × Bool × Option Configuration) × Judge := (s.table, s.judge)

theorem bench_eq : t.bench = t'.bench ↔ t.table = t'.table ∧ t.judge = t'.judge := by
  simp [State.bench]

theorem closeNext_judge {pick pick' : Chain → Bool} (picks : pick = pick') (same : t.bench = t'.bench) :
    (t.closeNext pick).judge = (t'.closeNext pick').judge := by
  subst picks
  obtain ⟨table, judge⟩ := bench_eq.1 same
  obtain ⟨tracker, -, config⟩ := table_eq.1 table
  cases found : t.tracker.chains.find? pick with
  | none => rw [closeNext_none found, closeNext_none (tracker ▸ found), judge]
  | some c =>
    rw [closeNext_some found, closeNext_some (tracker ▸ found)]
    exact judgeChain_judge config judge c

theorem closeAtAdvance_bench (travel : Nat) (reversal : Bool) (same : t.bench = t'.bench) :
    (t.closeAtAdvance travel reversal).bench = (t'.closeAtAdvance travel reversal).bench := by
  obtain ⟨table, -⟩ := bench_eq.1 same
  obtain ⟨tracker, -, config⟩ := table_eq.1 table
  have picks : (fun c : Chain => reversal || (!t.tracker.flying c.element && t.gapExceeded travel c)) =
      fun c => reversal || (!t'.tracker.flying c.element && t'.gapExceeded travel c) := by
    funext c
    rw [tracker, State.gapExceeded, State.gapExceeded, State.gapLimit, State.gapLimit, elem_of_config config]
  exact bench_eq.2 ⟨closeNext_table picks table, closeNext_judge picks same⟩

/-- The chains a travel advance closes, as the part stands at the edge. -/
def State.closesAt (s : State) (travel : Nat) (reversal : Bool) (c : Chain) : Bool :=
  reversal || (!s.tracker.flying c.element && s.pastGap travel c)

/-- Closings of a travel advance pick by the configuration and by what flies, which they leave. -/
theorem closeAtAdvance_replicate (travel n : Nat) (reversal : Bool) (config : t.control.config = s.control.config)
    (flight : t.tracker.inFlight = s.tracker.inFlight) :
    (List.replicate n (State.closeAtAdvance travel reversal)).foldl (fun u act => act u) t =
      (List.replicate n (State.closeNext (s.closesAt travel reversal))).foldl (fun u act => act u) t := by
  induction n generalizing t with
  | zero => rfl
  | succ n ih =>
    have pick : (fun c : Chain => reversal || (!t.tracker.flying c.element && t.gapExceeded travel c)) =
        s.closesAt travel reversal := by
      funext c
      rw [State.closesAt, State.gapExceeded, State.gapLimit, elem_of_config config, Tracker.flying, flight]
      rfl
    rw [List.replicate_succ, List.replicate_succ, List.foldl_cons, List.foldl_cons, State.closeAtAdvance, pick]
    refine ih (((closeNext_within t _).setup_config rfl).trans config) ?_
    rcases closeNext_cases t (s.closesAt travel reversal) with ⟨-, same⟩ | ⟨c, -, table, -⟩
    · rw [same, flight]
    · rw [table]
      exact flight

/-- The tracker alone at a travel advance: the chains it closes are judged in creation order. -/
theorem trackAdvance_fold (travel : Nat) (reversal : Bool) :
    (s.trackAdvance travel reversal).foldl (fun u act => act.2 u) s =
      ((s.tracker.chains.filter (s.closesAt travel reversal)).foldl (fun u c => u.judgeChain c) s).aside
        { s.tracker with chains := s.tracker.chains.filter fun c => !s.closesAt travel reversal c } s.cover
        s.control.enableMask
        (s.control.episodes.chainFull && (s.tracker.chains.filter (s.closesAt travel reversal)).isEmpty) := by
  have acts (n : Nat) (u : State) :
      (List.replicate n ((.tracker .advance : Mark), State.closeAtAdvance travel reversal)).foldl
        (fun u (act : Act) => act.2 u) u =
      (List.replicate n (State.closeAtAdvance travel reversal)).foldl (fun u act => act u) u := by
    induction n generalizing u with
    | zero => rfl
    | succ n ih => exact ih _
  rw [State.trackAdvance, acts, closeAtAdvance_replicate (s := s) travel _ reversal rfl rfl]
  exact closeNext_repeated _ _ (List.length_filter_le ..)

/-! ## The coverage monitor at a travel advance (R106, R107) -/

theorem coverAdvance_account (travel : Nat) (same : t.account = t'.account) :
    (t.coverAdvance travel).account = (t'.coverAdvance travel).account := by
  obtain ⟨cover, config⟩ := account_eq.1 same
  have station := station_of_config config
  have micros : t.spanMicros = t'.spanMicros := by rw [State.spanMicros, State.spanMicros, station]
  have configs : (t.coverAdvance travel).control.config = (t'.coverAdvance travel).control.config :=
    ((coverAdvance_within t travel).setup_config rfl).trans
      (config.trans ((coverAdvance_within t' travel).setup_config rfl).symm)
  refine account_eq.2 ⟨?_, configs⟩
  cases accounting : t.cover.accounting with
  | idle => rw [coverAdvance_idle accounting, coverAdvance_idle (cover ▸ accounting), cover]
  | active =>
    by_cases past : t.cover.spanStart + t.spanMicros ≤ travel
    · have counted : (t.spanCounted travel).cover = (t'.spanCounted travel).cover := by
        rw [State.spanCounted, State.spanCounted, micros, cover]
      have told (u : State) (f : Frame) : (u.append f).cover = u.cover := (append_within ..).cover rfl
      rw [coverAdvance_past accounting past, coverAdvance_past (cover ▸ accounting) (by rw [← cover, ← micros]; exact past)]
      simp only [State.modCover, told, counted, cover, micros]
    · have before := Nat.not_le.1 past
      rw [coverAdvance_inside accounting before,
        coverAdvance_inside (cover ▸ accounting) (by rw [← cover, ← station]; exact before), cover]

/-! ## A travel advance without a fire (R7) -/

/-- An act of a travel advance by its lane. -/
theorem mem_advanceLanes {j : Nat} {l : List Act} (at_j : (m.advanceLanes a)[j]? = some l) {act : Act} (mem : act ∈ l) :
    (j = 0 ∧ act.2 = State.queueStatus 0) ∨ (j = 1 ∧ act.2 = State.closeAtAdvance a.travel a.reversal) ∨
      (j = 2 ∧ act.2 = State.coverAdvance a.travel) ∨ (j = 3 ∧ act.2 = State.pairAdvance a.travel) := by
  match j, at_j with
  | 0, at_j =>
    have lane : (if m.startsMoving a then [((.loose : Mark), State.queueStatus 0)] else []) = l := Option.some.inj at_j
    rw [← lane] at mem
    split at mem
    · exact .inl ⟨rfl, by rw [List.mem_singleton.1 mem]⟩
    · cases mem
  | 1, at_j =>
    cases at_j
    exact .inr (.inl ⟨rfl, by rw [List.eq_of_mem_replicate mem]⟩)
  | 2, at_j =>
    cases at_j
    exact .inr (.inr (.inl ⟨rfl, by rw [List.mem_singleton.1 mem]⟩))
  | 3, at_j =>
    cases at_j
    exact .inr (.inr (.inr ⟨rfl, by rw [List.mem_singleton.1 mem]⟩))

theorem queueStatus_told (page : Byte) : Told s (s.queueStatus page) := append_told _

/-- What the chain tracker, the judge and the coverage monitor make of a travel advance is theirs alone. -/
theorem advance_views {ord : Nat → Nat → Nat} (bench : b.bench = m.bench) (cover : b.cover = m.cover) :
    (b.inFreeOrder ord (m.advanceLanes a)).bench =
        ((m.trackAdvance a.travel a.reversal).foldl (fun u act => act.2 u) m).bench ∧
      (b.inFreeOrder ord (m.advanceLanes a)).cover = (m.coverAdvance a.travel).cover := by
  obtain ⟨acts, merges, ran⟩ := inFreeOrder_merges b ord (m.advanceLanes a)
  rw [ran]
  refine ⟨?_, ?_⟩
  · refine merges.view State.bench 1 (fun j l apart at_j act mem t => ?_) (fun l at_1 act mem t t' same => ?_) _ m bench
    · rcases mem_advanceLanes at_j mem with ⟨-, is⟩ | ⟨one, -⟩ | ⟨-, is⟩ | ⟨-, is⟩
      · have told := queueStatus_told (s := t) 0
        rw [is]
        exact bench_eq.2 ⟨told_table told, told.within.judge rfl⟩
      · exact absurd one apart
      · have within := coverAdvance_within t a.travel
        rw [is]
        exact bench_eq.2 ⟨table_eq.2 ⟨within.tracker rfl, coverAdvance_chainFull _, within.setup_config rfl⟩,
          within.judge rfl⟩
      · rw [is]
        rfl
    · cases at_1
      rw [List.eq_of_mem_replicate mem]
      exact closeAtAdvance_bench _ _ same
  · obtain ⟨table, -⟩ := bench_eq.1 bench
    have start : b.account = m.account := account_eq.2 ⟨cover, (table_eq.1 table).2.2⟩
    have seen := merges.view State.account 2 (fun j l apart at_j act mem t => ?_) (fun l at_2 act mem t t' same => ?_)
      { b with free := b.free + 1 } m start
    · exact (account_eq.1 seen).1
    · rcases mem_advanceLanes at_j mem with ⟨-, is⟩ | ⟨-, is⟩ | ⟨two, -⟩ | ⟨-, is⟩
      · have within := (queueStatus_told (s := t) 0).within
        rw [is]
        exact account_eq.2 ⟨within.cover rfl, within.setup_config rfl⟩
      · have within := closeNext_within t fun c => a.reversal || (!t.tracker.flying c.element && t.gapExceeded a.travel c)
        rw [is]
        exact account_eq.2 ⟨within.cover rfl, within.setup_config rfl⟩
      · exact absurd two apart
      · rw [is]
        rfl
    · cases at_2
      rw [List.mem_singleton.1 mem]
      exact coverAdvance_account _ same

end Sys2Proof.Machine
end

section
/-! SUPPORT. A travel advance at which no chain closes: what it queues, and what it leaves of the pairing lists. -/

namespace Sys2Proof.Machine

variable {s t u b m : State} {v : Event} {d : Deed} {ds : List Deed} {a : Advance} {p : Pairing}

/-! ## Acts apart from one another -/

/-- A closing of a travel advance. -/
def Deed.closes : Deed → Bool
  | .closeAtAdvance => true
  | _ => false

/-- The travel advance at the pairing unit. -/
def Deed.pairs : Deed → Bool
  | .pairAdvance => true
  | _ => false

/-- The acts of a travel advance. -/
def Deed.advances : Deed → Bool
  | .tellStatus => true
  | .closeAtAdvance => true
  | .coverAdvance => true
  | .pairAdvance => true
  | _ => false

theorem append_pair (f : Frame) : ({ s with pair := p } : State).append f = { s.append f with pair := p } := by
  by_cases room : s.hasRoomFor 1
  · rw [append_fits f room, append_fits f (by exact room)]
  · have full : 24 ≤ s.link.txQueue.length := by
      have cap : Config.txCapacity = 24 := rfl
      simp only [State.hasRoomFor] at room
      omega
    rw [append_dropped f full, append_dropped f (by exact full)]
    rfl

theorem queueStatus_pair : ({ s with pair := p } : State).queueStatus 0 = { s.queueStatus 0 with pair := p } :=
  append_pair _

theorem coverAdvance_pair (travel : Nat) :
    ({ s with pair := p } : State).coverAdvance travel = { s.coverAdvance travel with pair := p } := by
  cases accounting : s.cover.accounting with
  | idle => rw [coverAdvance_idle accounting, coverAdvance_idle (by exact accounting)]
  | active =>
    by_cases past : s.cover.spanStart + s.spanMicros ≤ travel
    · rw [coverAdvance_past accounting past, coverAdvance_past (by exact accounting) (by exact past)]
      have told := append_pair (s := s.spanCounted travel) (p := p) ((s.spanCounted travel).spanNotice s.spanMicros)
      exact congrArg (State.modCover _) told
    · have before := Nat.not_le.1 past
      rw [coverAdvance_inside accounting before, coverAdvance_inside (by exact accounting) (by exact before)]

/-- The chain table does not change in a travel advance that closes no chain, whose closings do nothing. -/
theorem runDeeds_quiet (none : ∀ c ∈ b.tracker.chains, b.closesAt v.travel v.reversal c = false)
    (tracker : t.tracker = b.tracker) (config : t.control.config = b.control.config)
    (kinds : ∀ d ∈ ds, d.advances = true) :
    runDeeds v ds t = runDeeds v (ds.filter fun d => !d.closes) t := by
  induction ds generalizing t with
  | nil => rfl
  | cons d ds ih =>
    have rest (kept : (d.act v t).tracker = t.tracker) : runDeeds v ds (d.act v t) =
        runDeeds v (ds.filter fun d => !d.closes) (d.act v t) :=
      ih (kept.trans tracker) (((deed_within v d).setup_config rfl).trans config)
        fun d mem => kinds d (List.mem_cons_of_mem _ mem)
    have one := kinds d (List.mem_cons_self ..)
    cases d with
    | closeAtAdvance =>
      have still : Deed.closeAtAdvance.act v t = t := by
        refine closeNext_none (List.find?_eq_none.2 fun c mem => ?_)
        rw [tracker] at mem
        have open_ := none c mem
        rw [State.closesAt, Tracker.flying, ← tracker] at open_
        rw [State.gapExceeded, State.gapLimit, elem_of_config config, Tracker.flying]
        exact fun picked => absurd (open_.symm.trans picked) Bool.noConfusion
      rw [runDeeds_cons, rest (by rw [still]), still]
      rfl
    | tellStatus => exact rest ((append_within ..).tracker rfl)
    | coverAdvance => exact rest ((coverAdvance_within ..).tracker rfl)
    | pairAdvance => exact rest rfl
    | _ => cases one

/-- The pairing unit and the other blocks do not see each other's acts of a travel advance. -/
theorem runDeeds_apart (kinds : ∀ d ∈ ds, d.advances = true ∧ d.closes = false) :
    ∃ p, runDeeds v ds t = { runDeeds v (ds.filter fun d => !d.pairs) t with pair := p } := by
  have both (q : Pairing) (ds : List Deed) (kinds : ∀ d ∈ ds, d.advances = true ∧ d.closes = false) (t : State) :
      ∃ p, runDeeds v ds { t with pair := q } = { runDeeds v (ds.filter fun d => !d.pairs) t with pair := p } := by
    induction ds generalizing t q with
    | nil => exact ⟨q, rfl⟩
    | cons d ds ih =>
      obtain ⟨one, other⟩ := kinds d (List.mem_cons_self ..)
      have kinds' : ∀ d ∈ ds, d.advances = true ∧ d.closes = false := fun d mem => kinds d (List.mem_cons_of_mem _ mem)
      cases d with
      | closeAtAdvance => cases other
      | pairAdvance => exact ih _ kinds' t
      | tellStatus =>
        have apart : Deed.tellStatus.act v { t with pair := q } = { Deed.tellStatus.act v t with pair := q } :=
          queueStatus_pair
        rw [runDeeds_cons, apart]
        exact ih q kinds' _
      | coverAdvance =>
        have apart : Deed.coverAdvance.act v { t with pair := q } = { Deed.coverAdvance.act v t with pair := q } :=
          coverAdvance_pair _
        rw [runDeeds_cons, apart]
        exact ih q kinds' _
      | _ => cases one
  exact both t.pair ds kinds t

theorem pairAdvance_pair (travel : Nat) (config : t.control.config = u.control.config) (pair : t.pair = u.pair) :
    (t.pairAdvance travel).pair = (u.pairAdvance travel).pair := by
  rw [State.pairAdvance, State.pairAdvance, station_of_config config]
  simp only [State.modPair, pair]

theorem runDeeds_pair (kinds : ∀ d ∈ ds, d.advances = true ∧ d.closes = false)
    (config : t.control.config = u.control.config) (pair : t.pair = u.pair) :
    (runDeeds v ds t).pair = (runDeeds v (ds.filter Deed.pairs) u).pair := by
  induction ds generalizing t u with
  | nil => exact pair
  | cons d ds ih =>
    obtain ⟨one, other⟩ := kinds d (List.mem_cons_self ..)
    have kinds' : ∀ d ∈ ds, d.advances = true ∧ d.closes = false := fun d mem => kinds d (List.mem_cons_of_mem _ mem)
    have configs := (deed_within v d (s := t)).setup_config rfl
    cases d with
    | closeAtAdvance => cases other
    | pairAdvance => exact ih kinds' config (pairAdvance_pair _ config pair)
    | tellStatus => exact ih kinds' (configs.trans config) (((append_within ..).pair rfl).trans pair)
    | coverAdvance => exact ih kinds' (configs.trans config) (((coverAdvance_within ..).pair rfl).trans pair)
    | _ => cases one

/-! ## What is queued (R107, R165) -/

/-- The SPAN notices of a travel advance. -/
def State.spansAt (s : State) (travel : Nat) : List Frame :=
  if s.cover.accounting = .active ∧ s.cover.spanStart + s.spanMicros ≤ travel then
    [(s.spanCounted travel).spanNotice s.spanMicros]
  else []

theorem coverAdvance_room (travel : Nat) (room : s.hasRoomFor 1) :
    s.coverAdvance travel =
      { s with cover := (s.coverAdvance travel).cover, link := s.link.queueing (s.spansAt travel) } := by
  cases accounting : s.cover.accounting with
  | idle =>
    have none : s.spansAt travel = [] := if_neg fun ⟨active, _⟩ => by rw [accounting] at active; cases active
    rw [coverAdvance_idle accounting, none, Link.queueing_nil]
  | active =>
    by_cases past : s.cover.spanStart + s.spanMicros ≤ travel
    · rw [coverAdvance_past accounting past, append_fits _ (by exact room), State.spansAt, if_pos ⟨accounting, past⟩]
      rfl
    · have none : s.spansAt travel = [] := if_neg fun ⟨_, after⟩ => past after
      rw [coverAdvance_inside accounting (Nat.not_le.1 past), none, Link.queueing_nil]

theorem spansAt_length (travel : Nat) : (s.spansAt travel).length ≤ 1 := by
  unfold State.spansAt
  split
  · exact Nat.le_refl 1
  · exact Nat.zero_le 1

/-- The status and the span notice of a travel advance, in either order, and the station control that stands. -/
theorem advance_told {starts : Bool}
    (order : ds.Perm ((if starts then [Deed.tellStatus] else []) ++ [.coverAdvance])) (room : b.hasRoomFor 2) :
    let told := if starts then [b.statusNotice 0] else []
    (runDeeds v ds b).control = b.control ∧
      ((runDeeds v ds b).link = b.link.queueing (told ++ b.spansAt v.travel) ∨
        (runDeeds v ds b).link = b.link.queueing (b.spansAt v.travel ++ told)) := by
  have one : b.hasRoomFor 1 := Nat.le_trans (Nat.le_succ _) room
  have covered : Deed.coverAdvance.act v b = _ := coverAdvance_room v.travel one
  cases starts with
  | false =>
    obtain rfl := List.perm_singleton.1 order
    rw [runDeeds_cons, covered]
    exact ⟨rfl, .inl rfl⟩
  | true =>
    let first : State := { b with link := b.link.queueing [b.statusNotice 0] }
    have status : Deed.tellStatus.act v b = first := append_fits _ one
    have orders : ds = [.tellStatus, .coverAdvance] ∨ ds = [.coverAdvance, .tellStatus] :=
      List.perm_pair.1 order
    rcases orders with rfl | rfl
    · have room' : first.hasRoomFor 1 := by
        simp only [State.hasRoomFor, first, Link.queueing_txQueue, List.length_append, List.length_singleton] at room ⊢
        omega
      have covered' : Deed.coverAdvance.act v first = _ := coverAdvance_room v.travel room'
      rw [runDeeds_cons, status, runDeeds_cons, covered', Link.queueing_queueing]
      exact ⟨rfl, .inl rfl⟩
    · have short := spansAt_length (s := b) v.travel
      let second : State :=
        { b with cover := (b.coverAdvance v.travel).cover, link := b.link.queueing (b.spansAt v.travel) }
      have room' : second.hasRoomFor 1 := by
        simp only [State.hasRoomFor, second, Link.queueing_txQueue, List.length_append] at room ⊢
        omega
      have status' : Deed.tellStatus.act v second = { second with link := second.link.queueing [b.statusNotice 0] } :=
        append_fits (b.statusNotice 0) room'
      rw [runDeeds_cons, covered, runDeeds_cons, status']
      exact ⟨rfl, .inr (Link.queueing_queueing ..)⟩

end Sys2Proof.Machine
end

section
/-! An accepted edge: the odometer, and what the travel advance and the shot at the edge make of the other blocks (O9). -/

namespace Sys2Proof.Machine

variable {s t m : State} {ds : List Deed} {a : Advance} {ord : Nat → Nat → Nat} {peaks : Eight Nat}

/-! ## The travel advance handed out (R7, R20, R30) -/

/-- The part as the scheduler makes its attempt at an edge. -/
def State.moving (a : Advance) (m : State) : State := m.setOff (m.startsMoving a)

theorem handAdvance_rest (formed : (m.moving a).formed = []) :
    m.handAdvance ord peaks a = (m.moving a).inFreeOrder ord (m.advanceLanes a) := by
  unfold State.handAdvance
  dsimp only
  rw [moving_eq, show m.setOff (m.startsMoving a) = m.moving a from rfl, formed]
  rfl

theorem handAdvance_fire (formed : (m.moving a).formed ≠ []) :
    m.handAdvance ord peaks a = ((m.moving a).latchShot (m.moving a).formed peaks).inFreeOrder ord
      (m.advanceLanes a ++ (m.moving a).fireLanes (m.moving a).formed peaks) := by
  unfold State.handAdvance
  dsimp only
  rw [moving_eq, show m.setOff (m.startsMoving a) = m.moving a from rfl,
    if_neg (by rw [List.isEmpty_iff]; exact formed)]

/-- A travel advance without a fire as an event. -/
def State.restEvent (a : Advance) (m : State) : Event :=
  { travel := a.travel, reversal := a.reversal, set := noElements, x := m.currentX, ask := fun _ => none }

theorem handAdvance_restDeeds (formed : (m.moving a).formed = []) :
    ∃ ds, Interleaves (m.advanceDeeds (m.startsMoving a)) ds ∧
      m.handAdvance ord peaks a = runDeeds (m.restEvent a) ds { m.moving a with free := (m.moving a).free + 1 } := by
  obtain ⟨acts, merges, ran⟩ := inFreeOrder_merges (m.moving a) ord (m.advanceLanes a)
  obtain ⟨ds, order, rfl⟩ := interleaves_of_merges (Deed.act (m.restEvent a)) merges _ (advanceLanes_named rfl rfl)
  refine ⟨ds, order, ?_⟩
  rw [handAdvance_rest formed, ran, List.foldl_map]
  rfl

theorem handAdvance_fireDeeds (travel : a.travel = m.odo.travel) (formed : (m.moving a).formed ≠ []) :
    ∃ ds, Interleaves (m.advanceDeeds (m.startsMoving a) ++
        [(m.moving a).trackDeeds, (m.moving a).ownDeeds peaks (m.moving a).formed]) ds ∧
      m.handAdvance ord peaks a =
        (m.moving a).firedBy (m.moving a).formed peaks ((m.moving a).free + 1) a.reversal ds := by
  obtain ⟨acts, merges, ran⟩ := inFreeOrder_merges ((m.moving a).latchShot (m.moving a).formed peaks) ord
    (m.advanceLanes a ++ (m.moving a).fireLanes (m.moving a).formed peaks)
  have named : (m.advanceLanes a ++ (m.moving a).fireLanes (m.moving a).formed peaks).map (List.map Prod.snd) =
      (m.advanceDeeds (m.startsMoving a) ++
        [(m.moving a).trackDeeds, (m.moving a).ownDeeds peaks (m.moving a).formed]).map
        (List.map (Deed.act ((m.moving a).fireEvent (m.moving a).formed a.reversal))) := by
    rw [List.map_append, List.map_append, fireLanes_named a.reversal, advanceLanes_named
      (v := (m.moving a).fireEvent (m.moving a).formed a.reversal) travel.symm rfl]
  obtain ⟨ds, order, rfl⟩ := interleaves_of_merges _ merges _ named
  refine ⟨ds, order, ?_⟩
  rw [handAdvance_fire formed, ran, List.foldl_map]
  rfl

/-- In every order the travel advance reaches the pairing unit. -/
theorem handAdvance_deeds (travel : a.travel = m.odo.travel) :
    ∃ v ds b, m.handAdvance ord peaks a = runDeeds v ds b ∧ v.travel = a.travel ∧ Deed.pairAdvance ∈ ds ∧
      b.tracker = m.tracker ∧ b.pair = m.pair ∧ b.control = (m.moving a).control := by
  by_cases formed : (m.moving a).formed = []
  · obtain ⟨ds, order, ran⟩ := handAdvance_restDeeds (ord := ord) (peaks := peaks) formed
    have lane : [Deed.pairAdvance].Sublist ds := order.sublist (i := 3) rfl
    exact ⟨_, ds, _, ran, rfl, lane.subset (List.mem_cons_self ..), rfl, rfl, rfl⟩
  · obtain ⟨ds, order, ran⟩ := handAdvance_fireDeeds (ord := ord) (peaks := peaks) travel formed
    have lane : [Deed.pairAdvance].Sublist ds := order.sublist (i := 3) rfl
    exact ⟨_, ds, _, ran, travel.symm, lane.subset (List.mem_cons_self ..), rfl, rfl, rfl⟩

/-- What an edge leaves in every case: the peers, the run mark, stored notices that are no older than the horizon, the
station state, and a CHAIN_FULL episode ended exactly when chains have gone. -/
theorem handAdvance_always (travel : a.travel = m.odo.travel) :
    let t := m.handAdvance ord peaks a
    t.pair.peers = m.silenced a.travel m.pair.peers ∧ t.pair.runMark = m.pair.runMark ∧
      t.pair.notices ⊆ m.pair.notices ∧
      (m.pair.runMark = true → ∀ n ∈ t.pair.notices, a.travel - n.arrival ≤ 1000000 * m.station.horizon) ∧
      t.control.state = (m.moving a).control.state ∧
      t.control.episodes.chainFull =
        (m.control.episodes.chainFull && decide (t.tracker.chains = m.tracker.chains)) := by
  intro t
  obtain ⟨v, ds, b, ran, same, mem, tracker, pair, control⟩ :=
    handAdvance_deeds (ord := ord) (peaks := peaks) travel
  have ran' : t = runDeeds v ds b := ran
  have config : b.control.config = m.control.config := by rw [control]; rfl
  have paired := runDeeds_paired (v := v) (b := m) config ds
  have thins : Thins b (runDeeds v ds b) := runDeeds_thins v ds
  rw [← ran'] at paired thins
  have within : Within Footprint.disabling b t := by
    rw [ran']
    exact runDeeds_within v ds
  refine ⟨?_, ?_, ?_, fun mark n inside => ?_, ?_, ?_⟩
  · rw [paired.peers mem, pair, same]
  · rw [paired.runMark, pair]
  · have fewer := paired.notices
    rw [pair] at fewer
    exact fewer
  · have fresh := paired.fresh mem (by rw [pair]; exact mark) n inside
    rw [same] at fresh
    exact fresh
  · rw [within.station_state rfl, control]
  · rw [thins.chainFull, tracker, control]
    rfl

/-! ## An edge at which no shot forms -/

theorem advanceDeeds_flatten (starts : Bool) : (m.advanceDeeds starts).flatten =
    (if starts then [Deed.tellStatus] else []) ++
      (List.replicate m.tracker.chains.length .closeAtAdvance ++ [.coverAdvance, .pairAdvance]) := rfl

theorem mem_advanceDeeds {starts : Bool} {d : Deed}
    (mem : d ∈ (if starts then [Deed.tellStatus] else []) ++
      (List.replicate m.tracker.chains.length .closeAtAdvance ++ [.coverAdvance, .pairAdvance])) :
    d.advances = true := by
  rcases List.mem_append.1 mem with status | rest
  · cases starts with
    | false => cases status
    | true =>
      rw [List.mem_singleton.1 status]
      rfl
  · rcases List.mem_append.1 rest with closing | others
    · rw [List.eq_of_mem_replicate closing]
      rfl
    · rcases List.mem_cons.1 others with rfl | pairing
      · rfl
      · rw [List.mem_singleton.1 pairing]
        rfl

theorem handAdvance_quiet (formed : (m.moving a).formed = [])
    (none : ∀ c ∈ m.tracker.chains, m.closesAt a.travel a.reversal c = false) :
    let t := m.handAdvance ord peaks a
    t.pair = (m.pairAdvance a.travel).pair ∧
      (m.hasRoomFor 2 →
        let told := if m.startsMoving a then [(m.moving a).statusNotice 0] else []
        t.control = (m.moving a).control ∧
          (t.link = m.link.queueing (told ++ (m.moving a).spansAt a.travel) ∨
            t.link = m.link.queueing ((m.moving a).spansAt a.travel ++ told))) := by
  intro t
  obtain ⟨ds, order, ran⟩ := handAdvance_restDeeds (ord := ord) (peaks := peaks) formed
  have ran' : t = _ := ran
  have perm := order.perm
  rw [advanceDeeds_flatten] at perm
  have kinds : ∀ d ∈ ds, d.advances = true := fun d mem => mem_advanceDeeds (perm.subset mem)
  have quiet := runDeeds_quiet (v := m.restEvent a) (b := m)
    (t := { m.moving a with free := (m.moving a).free + 1 }) (by exact none) rfl rfl kinds
  rw [quiet] at ran'
  have kinds' : ∀ d ∈ ds.filter fun d => !d.closes, d.advances = true ∧ d.closes = false := fun d mem => by
    obtain ⟨inside, other⟩ := List.mem_filter.1 mem
    exact ⟨kinds d inside, by simpa using other⟩
  have pairs : (ds.filter fun d => !d.closes).filter Deed.pairs = [.pairAdvance] := by
    have filtered := (perm.filter fun d => !d.closes).filter Deed.pairs
    refine List.perm_singleton.1 (filtered.trans (List.Perm.of_eq ?_))
    cases m.startsMoving a <;> simp [List.filter_append, Deed.closes, Deed.pairs]
  have others : ((ds.filter fun d => !d.closes).filter fun d => !d.pairs).Perm
      ((if m.startsMoving a then [Deed.tellStatus] else []) ++ [.coverAdvance]) := by
    have filtered := (perm.filter fun d => !d.closes).filter fun d => !d.pairs
    refine filtered.trans (List.Perm.of_eq ?_)
    cases m.startsMoving a <;> simp [List.filter_append, Deed.closes, Deed.pairs]
  refine ⟨?_, fun room => ?_⟩
  · have paired := runDeeds_pair (v := m.restEvent a) (t := { m.moving a with free := (m.moving a).free + 1 }) (u := m)
      kinds' rfl rfl
    rw [ran', paired, pairs]
    rfl
  · obtain ⟨p, apart⟩ := runDeeds_apart (v := m.restEvent a) (t := { m.moving a with free := (m.moving a).free + 1 }) kinds'
    rw [ran', apart]
    exact advance_told (b := { m.moving a with free := (m.moving a).free + 1 }) others room

theorem judgeChains_judge {t' : State} (config : t.control.config = t'.control.config) (judge : t.judge = t'.judge)
    (l : List Chain) :
    (l.foldl (fun u c => u.judgeChain c) t).judge = (l.foldl (fun u c => u.judgeChain c) t').judge := by
  induction l generalizing t t' with
  | nil => exact judge
  | cons c l ih =>
    refine ih ?_ (judgeChain_judge config judge c)
    exact ((judgeChain_within t c).setup_config rfl).trans (config.trans ((judgeChain_within t' c).setup_config rfl).symm)

/-- No shot forms at an edge where nothing is due for a scheduler that could fire. -/
theorem moving_formed (nothing : (m.moving a).control.state = .running → m.pulser.hv = .ready →
      (m.sched.state = .free ∨ (m.sched.state = .off ∧ m.startsMoving a = true)) → m.nothingDue m.odo.travel) :
    (m.moving a).formed = [] := by
  by_cases forms : (m.moving a).sched.state = .free ∧ (m.moving a).control.state = .running ∧
      (m.moving a).pulser.hv = .ready
  · obtain ⟨sched, running, hv⟩ := forms
    have ready : m.pulser.hv = .ready := by
      have kept : (if m.startsMoving a = true ∧ m.sched.state = .off ∧ m.pulser.hv = .off then HighVoltage.settling 0
          else m.pulser.hv) = .ready := hv
      split at kept
      · cases kept
      · exact kept
    have free : m.sched.state = .free ∨ (m.sched.state = .off ∧ m.startsMoving a = true) := by
      by_cases off : m.startsMoving a = true ∧ m.sched.state = .off
      · exact .inr ⟨off.2, off.1⟩
      · exact .inl ((if_neg off).symm.trans sched)
    exact formed_eq_nil (by exact nothing running ready free)
  · exact if_neg forms

/-- An edge at which no shot forms: the chain table, the judge and the coverage account. -/
theorem handAdvance_blocks (formed : (m.moving a).formed = []) :
    let t := m.handAdvance ord peaks a
    t.tracker = { m.tracker with chains := m.tracker.chains.filter fun c => !m.closesAt a.travel a.reversal c } ∧
      t.judge = ((m.tracker.chains.filter (m.closesAt a.travel a.reversal)).foldl (fun u c => u.judgeChain c) m).judge ∧
      t.cover = (m.coverAdvance a.travel).cover ∧ t.sched = (m.moving a).sched ∧ t.pulser = (m.moving a).pulser := by
  intro t
  obtain ⟨ds, -, deeds⟩ := handAdvance_restDeeds (ord := ord) (peaks := peaks) formed
  have within : Within Footprint.disabling { m.moving a with free := (m.moving a).free + 1 } t :=
    (show t = _ from deeds) ▸ runDeeds_within (m.restEvent a) ds
  obtain ⟨bench, cover⟩ := advance_views (ord := ord) (b := m.moving a) (m := m) (a := a) rfl rfl
  have ran : t = _ := handAdvance_rest formed
  rw [← ran, trackAdvance_fold] at bench
  rw [← ran] at cover
  obtain ⟨table, judge⟩ := bench_eq.1 bench
  exact ⟨(table_eq.1 table).1, judge, cover, within.sched rfl, within.pulser rfl⟩

/-! ## An edge at which a shot fires -/

theorem closesAt_of_none (flight : m.tracker.inFlight = none) (travel : Nat) (reversal : Bool) (c : Chain) :
    m.closesAt travel reversal c = (reversal || m.pastGap travel c) := by
  rw [State.closesAt, Tracker.flying, flight]
  rfl

/-- The acts of a travel advance are none of a fire's. -/
theorem advances_apart {d : Deed} (one : d.advances = true) : d.own = false ∧ ∀ e, d ≠ .closeDisabled e := by
  cases d with
  | tellStatus => exact ⟨rfl, fun _ same => by cases same⟩
  | closeAtAdvance => exact ⟨rfl, fun _ same => by cases same⟩
  | coverAdvance => exact ⟨rfl, fun _ same => by cases same⟩
  | pairAdvance => exact ⟨rfl, fun _ same => by cases same⟩
  | _ => cases one

theorem handAdvance_fires (travel : a.travel = m.odo.travel) (flight : m.tracker.inFlight = none)
    (free : (m.moving a).sched.state = .free) (running : (m.moving a).control.state = .running)
    (hv : (m.moving a).pulser.hv = .ready) {e : Element} (enabled : m.control.enableMask.get e = true)
    (due : (m.sched.element.get e).nextDue ≤ m.odo.travel) :
    let taken := takeShot m.station (m.moving a).dueOrder
    taken ≠ [] ∧ (m.moving a).fires peaks taken (m.closesAt a.travel a.reversal) ((m.moving a).firedShot peaks taken)
      (m.handAdvance ord peaks a) := by
  intro taken
  have formed : (m.moving a).formed = taken := if_pos ⟨free, running, hv⟩
  have some : taken ≠ [] := takeShot_ne_nil ((mem_dueOrder (m.moving a) e).2 ⟨enabled, due⟩)
  obtain ⟨ds, order, ran⟩ := handAdvance_fireDeeds (ord := ord) (peaks := peaks) travel (by rw [formed]; exact some)
  rw [formed] at order ran
  have run : (m.moving a).inRun := by rw [State.inRun, running]; rfl
  have flat := advanceDeeds_flatten (m := m) (m.startsMoving a)
  have fire : FireOrder (m.moving a) peaks taken a.reversal (m.closesAt a.travel a.reversal) ds := by
    refine fireOrder_of_lanes order (fun d mem => ?_) ?_ (.inr ⟨?_, flight, fun c => ?_⟩)
    · rw [flat] at mem
      exact advances_apart (mem_advanceDeeds mem)
    · rw [flat, deedCost_append, deedCost_append, deedCost_zero (l := List.replicate ..) fun d mem => by
        rw [List.eq_of_mem_replicate mem]
        rfl]
      cases m.startsMoving a <;> decide
    · exact List.mem_cons_of_mem _ (List.mem_cons_self ..)
    · rw [closesAt_of_none flight, travel]
      rfl
  refine ⟨some, ?_⟩
  rw [ran]
  exact firedBy_fires fire hv run some

/-! ## The odometer at an edge (R5, R8, R9, R11) -/

theorem edge_pos (pitch h : Nat) (d : Int) (o : Odometer) :
    (o.edge pitch h d).pos.micros =
      max (1000 * Config.positionMin) (min (1000 * Config.positionMax + 999) (o.pos.micros + d)) ∧
      (o.edge pitch h d).pos.um ≤ 999 := ofMicros_micros _

theorem edge_turns (pitch h : Nat) (d : Int) (o : Odometer) :
    decide ((o.edge pitch h d).direction ≠ o.direction) = o.reverses h (o.pos.move d) := by
  obtain ⟨turns, goes⟩ := edge_direction pitch h d o
  cases reverses : o.reverses h (o.pos.move d) with
  | true =>
    rw [(turns reverses).1]
    cases o.direction <;> rfl
  | false =>
    rw [(goes reverses).1]
    simp

/-- The status of a station that starts to move. -/
theorem moving_status : ∃ status : Frame, status.showsState .running ∧
    (if m.startsMoving a then [(m.moving a).statusNotice 0] else []) = if m.startsMoving a then [status] else [] := by
  cases starts : m.startsMoving a with
  | true =>
    have shows := statusNotice_showsState (m.moving a)
    rw [show (m.moving a).control.state = .running from if_pos starts] at shows
    exact ⟨_, shows, rfl⟩
  | false =>
    let going : State := { m with control := { m.control with state := .running } }
    exact ⟨_, statusNotice_showsState going, rfl⟩

/-- The SPAN notice at a span end tells of the travel counted up to it. -/
theorem spanCounted_shows (travel : Nat) :
    ((s.spanCounted travel).spanNotice s.spanMicros).showsSpan s s.spanMicros fun e =>
      (s.cover.element.get e).gapTravel +
        if (s.cover.element.get e).causes.nonempty then s.cover.spanStart + s.spanMicros - s.cover.lastTravel else 0 := by
  have shows := spanNotice_showsSpan (s := s.spanCounted travel) s.spanMicros
  have gap (e : Element) : ((s.spanCounted travel).cover.element.get e).gapTravel =
      (s.cover.element.get e).gapTravel +
        if (s.cover.element.get e).causes.nonempty then s.cover.spanStart + s.spanMicros - s.cover.lastTravel else 0 := by
    rw [State.spanCounted, countGapTravel_eq]
    dsimp only
    rw [Eight.get_ofFn]
  simp only [gap] at shows
  exact shows

section
variable {lines : AcceptedLines}

theorem acceptLevels_forward (forward : decodeEdge s.station.encoderInvert s.odo.filteredA s.odo.filteredB
      (s.odo.accept lines s.pins.encA s.pins.encB).filteredA (s.odo.accept lines s.pins.encA s.pins.encB).filteredB =
      .forward) :
    s.acceptLevels ord lines peaks =
      (s.modOdo (Odometer.accept lines s.pins.encA s.pins.encB)).acceptEdge ord peaks s.station.edgePitch := by
  let u := s.modOdo (Odometer.accept lines s.pins.encA s.pins.encB)
  have kind : decodeEdge s.station.encoderInvert s.odo.filteredA s.odo.filteredB u.odo.filteredA u.odo.filteredB =
      .forward := forward
  unfold State.acceptLevels
  dsimp only
  rw [kind]

theorem acceptLevels_backward (backward : decodeEdge s.station.encoderInvert s.odo.filteredA s.odo.filteredB
      (s.odo.accept lines s.pins.encA s.pins.encB).filteredA (s.odo.accept lines s.pins.encA s.pins.encB).filteredB =
      .backward) :
    s.acceptLevels ord lines peaks =
      (s.modOdo (Odometer.accept lines s.pins.encA s.pins.encB)).acceptEdge ord peaks (-s.station.edgePitch) := by
  let u := s.modOdo (Odometer.accept lines s.pins.encA s.pins.encB)
  have kind : decodeEdge s.station.encoderInvert s.odo.filteredA s.odo.filteredB u.odo.filteredA u.odo.filteredB =
      .backward := backward
  unfold State.acceptLevels
  dsimp only
  rw [kind]
end

/-- Settles O9. -/
theorem acceptedEdgeMovesTheOdometer : Obligations.AcceptedEdgeMovesTheOdometer := by
  unfold Obligations.AcceptedEdgeMovesTheOdometer
  intro lines peaks s active o kind edge d
  let m : State := { s with odo := o.edge s.station.edgePitch s.station.hysteresis d }
  let a : Advance :=
    { travel := m.odo.travel
      reversal := o.reverses s.station.hysteresis (o.pos.move d)
      afterStill := s.odo.stillMark }
  have worked : exec (.encoderLevelAccepted lines peaks) s = .next (m.handAdvance Config.order peaks a) := by
    have accepts : (if s.odo.active then s.acceptLevels Config.order lines peaks else s) =
        m.handAdvance Config.order peaks a := by
      have hands (x : Int) (same : d = x) :
          (s.modOdo (Odometer.accept lines s.pins.encA s.pins.encB)).acceptEdge Config.order peaks x =
            m.handAdvance Config.order peaks a := by
        subst same
        rfl
      rw [if_pos active]
      rcases edge with forward | backward
      · exact (acceptLevels_forward forward).trans (hands _ (if_pos forward))
      · exact (acceptLevels_backward backward).trans (hands _ (if_neg (by rw [backward]; decide)))
    exact congrArg Host.Outcome.next accepts
  have within := handAdvance_within m Config.order peaks a
  have odo : (m.handAdvance Config.order peaks a).odo = m.odo := within.odo rfl
  obtain ⟨peers, mark, fewer, fresh, state, chainFull⟩ :=
    handAdvance_always (ord := Config.order) (peaks := peaks) (m := m) (a := a) rfl
  have quiet := handAdvance_quiet (ord := Config.order) (peaks := peaks) (m := m) (a := a)
  have blocks := handAdvance_blocks (ord := Config.order) (peaks := peaks) (m := m) (a := a)
  have fires := handAdvance_fires (ord := Config.order) (peaks := peaks) (m := m) (a := a) rfl
  generalize m.handAdvance Config.order peaks a = t at *
  obtain ⟨micros, um⟩ := edge_pos s.station.edgePitch s.station.hysteresis d o
  rw [show o.edge s.station.edgePitch s.station.hysteresis d = t.odo from odo.symm] at micros um
  refine ⟨t, worked, micros, um, congrArg Odometer.travel odo, (congrArg Odometer.direction odo).trans rfl,
    (congrArg Odometer.extreme odo).trans rfl, by rw [odo]; rfl, within.sameSetup rfl, within.sameOutside ⟨rfl, rfl, rfl, rfl, rfl⟩, ?_⟩
  rw [odo]
  intro starts moved closes quieter kept free
  have closes_eq : closes = m.closesAt a.travel a.reversal := by
    funext c
    have turned : decide (m.odo.direction ≠ s.odo.direction) = a.reversal := edge_turns ..
    have apart : (s.tracker.inFlight.all fun flying => !flying.get c.element) = !m.tracker.flying c.element := by
      rw [Tracker.flying]
      cases s.tracker.inFlight <;> rfl
    show (decide (m.odo.direction ≠ s.odo.direction) || ((s.tracker.inFlight.all fun flying => !flying.get c.element) && _)) =
      _
    rw [turned, apart]
    rfl
  have quieter_eq : quieter = m.silenced a.travel s.pair.peers := by
    refine List.map_congr_left fun q _ => ?_
    simp only [Bool.and_eq_true, decide_eq_true_eq]
    rfl
  refine ⟨?_, mark, fun n inside => ?_, state, chainFull, fun nothing => ?_, fun forms flight e0 enabled due => ?_⟩
  · rw [quieter_eq]
    exact peers
  · cases running : s.pair.runMark with
    | true => exact List.mem_filter.2 ⟨fewer inside, decide_eq_true (fresh running n inside)⟩
    | false => exact fewer inside
  · have formed : (m.moving a).formed = [] := moving_formed fun running ready sched => nothing ⟨running, ready, sched⟩
    obtain ⟨tracker, judge, cover, sched, pulser⟩ := blocks formed
    refine ⟨sched, pulser, ?_, ?_, ?_, fun none => ?_⟩
    · rw [closes_eq]
      exact tracker
    · rw [closes_eq, judge]
      exact judgeChains_judge (t := m) (t' := s) rfl rfl _
    · rw [cover]
      exact (account_eq.1 (coverAdvance_account (t := m) (t' := s) a.travel rfl)).1
    · rw [closes_eq] at none
      obtain ⟨pair, told⟩ := quiet formed none
      refine ⟨?_, fun room => ?_⟩
      · have young (n : Nat) : (!decide (1000000 * s.station.horizon < m.odo.travel - n)) =
            decide (m.odo.travel - n ≤ 1000000 * s.station.horizon) := by
          rw [← decide_not]
          exact decide_eq_decide.2 Nat.not_lt
        have advanced : (m.pairAdvance a.travel).pair = if s.pair.runMark then
            { s.pair with
              peers := m.silenced a.travel s.pair.peers
              notices := s.pair.notices.filter fun n => !decide (1000000 * s.station.horizon < m.odo.travel - n.arrival)
              own := s.pair.own.filter fun o => !decide (1000000 * s.station.horizon < m.odo.travel - o.travel)
              lost := min (s.pair.lost + (s.pair.notices.length - (s.pair.notices.filter fun n =>
                !decide (1000000 * s.station.horizon < m.odo.travel - n.arrival)).length)) 65535 }
            else { s.pair with peers := m.silenced a.travel s.pair.peers } := rfl
        rw [pair, advanced, quieter_eq]
        simp only [young]
        rfl
      · intro length spanEnd
        obtain ⟨control, link⟩ := told room
        obtain ⟨status, shows, told_eq⟩ := moving_status (m := m) (a := a)
        rw [told_eq] at link
        exact ⟨status, _, shows, spanCounted_shows (s := m.moving a) a.travel, control, link⟩
  · obtain ⟨running, ready, sched⟩ := forms
    have free' : (m.moving a).sched.state = .free := by
      rcases sched with already | ⟨off, begins⟩
      · exact (if_neg fun both => by rw [show m.sched.state = _ from already] at both; cases both.2).trans already
      · exact (if_pos ⟨begins, off⟩).trans (if_pos ready)
    have ready' : (m.moving a).pulser.hv = .ready :=
      (if_neg fun all => by rw [show m.pulser.hv = _ from ready] at all; cases all.2.2).trans ready
    obtain ⟨taken, fired⟩ := fires flight free' running ready' (e := e0) enabled due
    have order : (m.moving a).dueOrder = moved.dueOrder := dueOrder_of_same rfl rfl rfl
    rw [order] at taken fired
    have like : FiresLike (m.moving a) moved := ⟨rfl, rfl, rfl, rfl, rfl, rfl, rfl, rfl, rfl, rfl, rfl, rfl⟩
    rw [closes_eq]
    exact ⟨taken, _, like.fires (fun _ => ⟨rfl, rfl⟩) fired⟩

end Sys2Proof.Machine
end
